-- ==== Sys2Proof/Word.lean ====
section
/-! DEFINITION. The widths of the block's host port and of its bus (00_scope.md R8, R9; 20_memory.md R63). -/

namespace Sys2Proof

/-- A 32-bit host register value or command word (R8, R9). -/
abbrev Word := BitVec 32

/-- One byte of a bus transaction, a device register address or its value (R63). -/
abbrev Byte := BitVec 8

end Sys2Proof
end

