-- ==== Sys2Proof/Syntax.lean ====
section
/-! DEFINITION. The commands, one constructor per row of spec/opcode_table.json (30_encoding.md R95), with the
operand fields of their formats (R91 to R94). -/

namespace Sys2Proof

/-- A decoded command. Operands that a command takes from `S[CUR_ARG]` are not part of its word (R91). -/
inductive Instr where
  /-- `INIT`, format E, flag `DEF` (R92, 40_protocol.md R132). -/
  | init (useDefault : Bool)
  /-- `RESET`, format N (R133). -/
  | reset
  /-- `SETLP`, format E, flag `EN` (R134). -/
  | setlp (enable : Bool)
  /-- `READID`, format N (R135). -/
  | readid
  /-- `START`, format N (R136). -/
  | start
  /-- `WAIT`, format W, an unsigned millisecond count (R93, R137). -/
  | wait (ms : BitVec 24)
  /-- `READ`, format N (R138). -/
  | read
  /-- `MEASURE`, format N (R139). -/
  | measure
  /-- `VALIDATE`, format N (41_validator.md R186). -/
  | validate
  /-- `KELVIN`, format C (R94, 42_converter.md R219). -/
  | kelvin (src : BitVec 2) (mult : BitVec 16)
  /-- `CELSIUS`, format C (R220). -/
  | celsius (src : BitVec 2) (mult : BitVec 16)
  /-- `FAHRENHEIT`, format C (R221). -/
  | fahrenheit (src : BitVec 2) (mult : BitVec 16)
  /-- `HUMIDITY`, format C (R222). -/
  | humidity (src : BitVec 2) (mult : BitVec 16)
deriving DecidableEq, Repr

end Sys2Proof
end

