-- ==== Sys2Proof/Decode.lean ====
section
/-! DEFINITION. The decoder, total on every 32-bit word (30_encoding.md R96), and after it the encoder (R91 to R95). -/

namespace Sys2Proof

/-- Why a word is an illegal encoding (R100). -/
inductive DecodeError where
  /-- `OPC` is `0x0`, `0xE` or `0xF`. -/
  | reservedOpcode
  /-- A bit that the command's format marks 0 is 1. -/
  | reservedBits
deriving DecidableEq, Repr

/-- `OPC = w[3:0]` (R90). -/
def opcodeField (w : Word) : BitVec 4 := w.extractLsb' 0 4

/-- Format N: `w[31:4]` must be 0 (R91). -/
def formatN (w : Word) (i : Instr) : Except DecodeError Instr :=
  if w.extractLsb' 4 28 = 0#28 then .ok i else .error .reservedBits

/-- Format E: `F = w[8]`; `w[31:9]` and `w[7:4]` must be 0 (R92). -/
def formatE (w : Word) (mk : Bool → Instr) : Except DecodeError Instr :=
  if w.extractLsb' 9 23 = 0#23 ∧ w.extractLsb' 4 4 = 0#4 then .ok (mk (w.getLsbD 8)) else .error .reservedBits

/-- Format W: `MS = w[31:8]`; `w[7:4]` must be 0 (R93). -/
def formatW (w : Word) (mk : BitVec 24 → Instr) : Except DecodeError Instr :=
  if w.extractLsb' 4 4 = 0#4 then .ok (mk (w.extractLsb' 8 24)) else .error .reservedBits

/-- Format C: `MULT = w[31:16]`, `SRC = w[9:8]`; `w[15:10]` and `w[7:4]` must be 0 (R94). -/
def formatC (w : Word) (mk : BitVec 2 → BitVec 16 → Instr) : Except DecodeError Instr :=
  if w.extractLsb' 10 6 = 0#6 ∧ w.extractLsb' 4 4 = 0#4 then
    .ok (mk (w.extractLsb' 8 2) (w.extractLsb' 16 16))
  else .error .reservedBits

/-- `Decode(w)` (R96). -/
def decode (w : Word) : Except DecodeError Instr :=
  match (opcodeField w).toNat with
  | 0x1 => formatE w .init
  | 0x2 => formatN w .reset
  | 0x3 => formatE w .setlp
  | 0x4 => formatN w .readid
  | 0x5 => formatN w .start
  | 0x6 => formatW w .wait
  | 0x7 => formatN w .read
  | 0x8 => formatN w .measure
  | 0x9 => formatN w .validate
  | 0xA => formatC w .kelvin
  | 0xB => formatC w .celsius
  | 0xC => formatC w .fahrenheit
  | 0xD => formatC w .humidity
  | _ => .error .reservedOpcode

/-- The opcode of a command (R95). -/
def opcodeOf : Instr → BitVec 4
  | .init _ => 0x1#4
  | .reset => 0x2#4
  | .setlp _ => 0x3#4
  | .readid => 0x4#4
  | .start => 0x5#4
  | .wait _ => 0x6#4
  | .read => 0x7#4
  | .measure => 0x8#4
  | .validate => 0x9#4
  | .kelvin _ _ => 0xA#4
  | .celsius _ _ => 0xB#4
  | .fahrenheit _ _ => 0xC#4
  | .humidity _ _ => 0xD#4

/-- A format-N word (R91). -/
def wordN (opc : BitVec 4) : Word := 0#28 ++ opc

/-- A format-E word (R92). -/
def wordE (f : Bool) (opc : BitVec 4) : Word := 0#23 ++ BitVec.ofBool f ++ 0#4 ++ opc

/-- A format-W word (R93). -/
def wordW (ms : BitVec 24) (opc : BitVec 4) : Word := ms ++ 0#4 ++ opc

/-- A format-C word (R94). -/
def wordC (src : BitVec 2) (mult : BitVec 16) (opc : BitVec 4) : Word := mult ++ 0#6 ++ src ++ 0#4 ++ opc

/-- The word that spells a command (R95, R103). -/
def encode (i : Instr) : Word :=
  match i with
  | .init f => wordE f (opcodeOf i)
  | .reset => wordN (opcodeOf i)
  | .setlp f => wordE f (opcodeOf i)
  | .readid => wordN (opcodeOf i)
  | .start => wordN (opcodeOf i)
  | .wait ms => wordW ms (opcodeOf i)
  | .read => wordN (opcodeOf i)
  | .measure => wordN (opcodeOf i)
  | .validate => wordN (opcodeOf i)
  | .kelvin src mult => wordC src mult (opcodeOf i)
  | .celsius src mult => wordC src mult (opcodeOf i)
  | .fahrenheit src mult => wordC src mult (opcodeOf i)
  | .humidity src mult => wordC src mult (opcodeOf i)

/-- The command the decoder reads from the word whose bits are `w`, as spec/opcode_table.json numbers them. A command
is one 32-bit word (R90), so the bits above `nbits` are 0 and no byte order enters. -/
def decodeTableWord (nbits w : Nat) : Option Instr :=
  match decode (BitVec.ofNat 32 (w % 2 ^ nbits)) with
  | .ok i => some i
  | .error _ => none

end Sys2Proof
end

