-- ==== Sys2Proof/Config.lean ====
section
/-! DEFINITION. What an implementation fixes (00_scope.md R6, R7) and the free values of the external agents
(20_memory.md R63). The default values of the parameters are in Machine/Params.lean. -/

namespace Sys2Proof

/-- The measurement word's layout, parameter `LAYOUT` (R7): the document's, or the ENS210 part's. -/
inductive Layout where
  | doc
  | device
deriving DecidableEq, Repr

/-- How the two result words are transferred, parameter `READ_MODE` (R6, 40_protocol.md R141). -/
inductive ReadMode where
  | split
  | combined
deriving DecidableEq, Repr

/-- The arithmetic of the Celsius and Fahrenheit conversions, parameter `CONV_FORM` (R6, 42_converter.md R213, R215). -/
inductive ConvForm where
  | exact
  | twoTerm
deriving DecidableEq, Repr

/-- The address of one write of `TRIGGER_WRITES`: the sensor-start register by its name, as the default column of R6 has it,
or another device address (20_memory.md R64). -/
inductive TriggerReg where
  | sensStart
  | other (addr : Byte)
deriving DecidableEq, Repr

/-- The implementation parameters a model takes as arguments (00_scope.md R6). `State.params` holds one value of
this type, which no step writes (log 3). The widths of the millisecond counts are the delay port's (R66; log 13). -/
structure Params where
  /-- `LAYOUT`. -/
  layout : Layout
  /-- `T_CONV_MS`, the conversion time in milliseconds. -/
  tConvMs : BitVec 24
  /-- `MULT_MAX`, the largest legal multiplier. -/
  multMax : BitVec 16
  /-- `DEFAULT_OFFSET`, in 1/64 K, signed. -/
  defaultOffset : Word
  /-- `CONV_FORM`. -/
  convForm : ConvForm
  /-- `READ_MODE`. -/
  readMode : ReadMode
  /-- `VALID_CODES`, the values of the validity field that mean valid. -/
  validCodes : List Nat
  /-- `CRC7_POLY`, bit `i` the coefficient of `x^i`. -/
  crcPoly : BitVec 8
  /-- `CRC7_INIT`. -/
  crcInit : BitVec 7
  /-- `REG_PART_ID`. -/
  regPartId : Byte
  /-- `REG_UID`. -/
  regUid : Byte
  /-- `REG_SYS_CTRL`. -/
  regSysCtrl : Byte
  /-- `REG_SENS_START`. -/
  regSensStart : Byte
  /-- `REG_T_VAL`. -/
  regTVal : Byte
  /-- `REG_H_VAL`. -/
  regHVal : Byte
  /-- `SYS_CTRL_RESET`. -/
  sysCtrlReset : Byte
  /-- `SYS_CTRL_LOWPOWER`. -/
  sysCtrlLowPower : Byte
  /-- `SYS_CTRL_HIGHPOWER`. -/
  sysCtrlHighPower : Byte
  /-- `TRIGGER_WRITES`, the (address, value) writes of one trigger, in order; `Params.triggerWrites` gives their addresses. -/
  triggerList : List (TriggerReg × Byte)
  /-- `EXPECTED_PART_ID`. -/
  expectedPartId : BitVec 16
  /-- `INIT_BOOT_DELAY_MS`. -/
  initBootDelayMs : BitVec 24
  /-- `PART_ID_BYTES`. -/
  partIdBytes : Nat
  /-- `UID_BYTES`. -/
  uidBytes : Nat
deriving DecidableEq, Repr

/-- The success flag of the `n`-th answer that an external agent draws freely (20_memory.md R63, "The answer is a
free draw"). FREE VALUE: no body, so nothing can be proved of it (log 2). -/
opaque Config.freeOk : Nat → Bool

/-- Byte `i` of the `n`-th freely drawn answer (20_memory.md R63). FREE VALUE (log 2). -/
opaque Config.freeByte : Nat → Nat → Byte

end Sys2Proof
end

