-- ==== Sys2Proof/Machine/Params.lean ====
section
/-! DEFINITION. The addresses of the trigger writes (00_scope.md R6), the layout table (R7) and the default parameter values (R6). -/

namespace Sys2Proof

/-- The device address of a trigger write (20_memory.md R64). -/
def Params.triggerAddr (p : Params) : TriggerReg → Byte
  | .sensStart => p.regSensStart
  | .other addr => addr

/-- `TRIGGER_WRITES` as device addresses and values, in order (40_protocol.md R140). -/
def Params.triggerWrites (p : Params) : List (Byte × Byte) := p.triggerList.map fun w => (p.triggerAddr w.1, w.2)

end Sys2Proof

namespace Sys2Proof.Machine

/-- `DATA_W`, the width of the data field (R7). -/
def dataW : Layout → Nat
  | .doc => 17
  | .device => 16

/-- `VALID_W`, the width of the validity field (R7). -/
def validW : Layout → Nat
  | .doc => 2
  | .device => 1

/-- `CODE_W`, the width of the check code (R7). -/
def codeW : Layout → Nat
  | .doc => 7
  | .device => 7

/-- `VALID_LSB = DATA_W` (R7). -/
def validLsb (l : Layout) : Nat := dataW l

/-- `CODE_LSB = DATA_W + VALID_W` (R7). -/
def codeLsb (l : Layout) : Nat := dataW l + validW l

/-- `PAYLOAD_W = DATA_W + VALID_W` (R7). -/
def payloadW (l : Layout) : Nat := dataW l + validW l

/-- `USED_W = PAYLOAD_W + CODE_W` (R7). -/
def usedW (l : Layout) : Nat := payloadW l + codeW l

/-- `WORD_BYTES`, the bytes per measurement word on the bus (R7). -/
def wordBytes : Layout → Nat
  | .doc => 4
  | .device => 3

/-- The default column of R6 (log 4 marks the rows that R6 takes from general knowledge). -/
def defaultParams : Params where
  layout := .doc
  tConvMs := 130#24
  multMax := 10000#16
  defaultOffset := 3#32
  convForm := .exact
  readMode := .split
  validCodes := [0b01]
  crcPoly := 0x89#8
  crcInit := 0x7F#7
  regPartId := 0x00#8
  regUid := 0x04#8
  regSysCtrl := 0x10#8
  regSensStart := 0x22#8
  regTVal := 0x30#8
  regHVal := 0x34#8
  sysCtrlReset := 0x80#8
  sysCtrlLowPower := 0x01#8
  sysCtrlHighPower := 0x00#8
  triggerList := [(.sensStart, 0x03#8)]
  expectedPartId := 0x0210#16
  initBootDelayMs := 0#24
  partIdBytes := 2
  uidBytes := 8

/-- The defaults under `LAYOUT = DEVICE` (R6, R7): `REG_H_VAL` is `0x33` and the one valid code is 1. -/
def deviceParams : Params :=
  { defaultParams with layout := .device, regHVal := 0x33#8, validCodes := [0b1] }

end Sys2Proof.Machine
end

