-- ==== Sys2Proof/Machine/State.lean ====
section
/-! DEFINITION. The block's state (10_state.md R20), the moves of the agents around it, the reasons a step can stop, and
the state after reset (70_reset_and_hazards.md R280). -/

namespace Sys2Proof.Machine

/-- The model faults, a closed list (60_exceptions.md R258). Each is first recorded in `State.faulted` (R259); the step
after that, and every later one, answers `Outcome.fault` with it. All are safe: the spec gives the situation no meaning. -/
inductive Fault where
  /-- The host wrote `CMD` while `BUSY = 1` (R286). Raised by `offerCommand`. Safe. -/
  | cmdWhileBusy
  /-- `START` or `MEASURE` with a conversion pending (R284). Raised by `execStart` and `execMeasure`. Safe. -/
  | retrigger
  /-- `READ` before the conversion time was waited out (R285). Raised by `execRead`. Safe. -/
  | earlyRead
  /-- A host access to an unmapped or unaligned offset, or not of 32 bits (R62). Raised by `hostAccess`. Safe. -/
  | hostAccess
deriving DecidableEq, Repr

/-- Why a step has no meaning. -/
inductive Refusal where
  /-- An instruction without a meaning; raised only by an arm of `exec`. No arm raises it. Safe. -/
  | notModelled (mnemonic : String)
  /-- The sequencer stands at a step its command does not have, or holds an answer of another kind than that step
  consumes. No state that meets the invariant of Safety.lean is one, so no run from reset comes here. Raised by the
  meanings of the commands. Safe (log 10). -/
  | sequencerIncoherent
deriving DecidableEq, Repr

/-- The outcome of one step of the block. -/
abbrev Result (σ : Type) := Host.Outcome σ Fault Refusal

/-- The status codes of a reading (30_encoding.md R97); codes 5 to 7 are never produced. -/
inductive Status where
  | none
  | ok
  | invalid
  | crcError
  | busError
deriving DecidableEq, Repr

/-- `CTRL_STAT.INIT_STATE` (R38); value 3 is never produced. -/
inductive InitState where
  | uninit
  | ready
  | failed
deriving DecidableEq, Repr

/-- `CTRL_STAT.CMD_ERR` (R98); codes 7 to 15 are never produced. -/
inductive CmdErr where
  | none
  | notReady
  | illegal
  | badArg
  | bus
  | idMismatch
  | range
deriving DecidableEq, Repr

/-- An external request (R45, 20_memory.md R63, R66). -/
inductive Request where
  | busWrite (addr byte : Byte)
  | busRead (addr : Byte) (count : Nat)
  | delay (ms : BitVec 24)
deriving DecidableEq, Repr

/-- An external agent's answer (R45). -/
inductive Answer where
  /-- To a write. -/
  | ack (ok : Bool)
  /-- To a read; the bytes are not used when `ok` is false (R63). -/
  | data (ok : Bool) (bytes : List Byte)
  /-- To a delay. -/
  | done
deriving DecidableEq, Repr

/-- `S[OUTSTANDING]` when it is not `None`: a request and, once the agent has answered, its answer (R45). -/
structure Outstanding where
  request : Request
  answer : Option Answer
deriving DecidableEq, Repr

/-- What a command keeps between its steps, part of `S[PHASE]`'s continuation (R45). -/
structure Locals where
  /-- `INIT`: the offset chosen in step 1 (R132). -/
  offset : Word
  /-- `INIT`, `READID`: the part identifier read (R142). -/
  partId : BitVec 16
  /-- `READ`, `MEASURE` under `SPLIT`: whether the temperature word was read (R141). -/
  tOk : Bool
  /-- `READ`, `MEASURE` under `SPLIT`: the temperature word (R141, R47). -/
  tWord : Word
deriving DecidableEq, Repr

/-- The locals of a command that has written none; no command reads one before writing it. -/
def Locals.start : Locals := { offset := 0#32, partId := 0#16, tOk := false, tWord := 0#32 }

/-- `S[PHASE]` (R23): `IDLE`, or `EXEC(op, k)` with the locals of the running command (R45). -/
inductive Phase where
  | idle
  | exec (op : BitVec 4) (k : Nat) (locals : Locals)
deriving DecidableEq, Repr

/-- A host access to the host register space: a byte offset in the 64-byte window and a width in bits (20_memory.md R60,
R62; log 17). -/
inductive HostAccess where
  | read (off : BitVec 6) (width : Nat)
  | write (off : BitVec 6) (width : Nat) (value : Word)
deriving DecidableEq, Repr

/-- One agent's move (00_scope.md R5, 60_exceptions.md R260) or the block's reset input (R280). MODEL's own (log 1). -/
inductive Move where
  | host (a : HostAccess)
  | sequencer
  /-- The bus agent answers the outstanding transaction; the bytes matter to a read only. -/
  | bus (ok : Bool) (bytes : List Byte)
  /-- The delay agent answers the outstanding delay request. -/
  | delayDone
  | blockReset
deriving DecidableEq, Repr

/-- The block's state, the tuple `(regs, ctrl, seq, faulted)` of R20, and after it the model's own fields. -/
structure State where
  /-- `ARG0` (R25). -/
  arg0 : Word
  /-- `RESULT` (R26). -/
  result : Word
  /-- `V_STATUS` (R27). -/
  vStatus : Status
  /-- `T_DATA` (R28), held in the wider of the two layouts' widths (log 11). -/
  tData : BitVec 17
  /-- `T_STATUS` (R29). -/
  tStatus : Status
  /-- `H_DATA` (R30; log 11). -/
  hData : BitVec 17
  /-- `H_STATUS` (R31). -/
  hStatus : Status
  /-- `CAL_OFFSET` (R32). -/
  calOffset : Word
  /-- `PART_ID` (R33). -/
  partId : BitVec 16
  /-- `UID_LO` (R34). -/
  uidLo : Word
  /-- `UID_HI` (R34). -/
  uidHi : Word
  /-- `CTRL_STAT.BUSY` (R37; log 12). -/
  busy : Bool
  /-- `CTRL_STAT.INIT_STATE` (R38). -/
  initState : InitState
  /-- `CTRL_STAT.CONV_PENDING` (R39). -/
  convPending : Bool
  /-- `CTRL_STAT.LAST_OPC` (R41). -/
  lastOpc : BitVec 4
  /-- `CTRL_STAT.CMD_ERR` (R42). -/
  cmdErr : CmdErr
  /-- `S[PHASE]` (R23). -/
  phase : Phase
  /-- `S[CUR_CMD]` (R43). -/
  curCmd : Word
  /-- `S[CUR_ARG]` (R43). -/
  curArg : Word
  /-- `S[WAIT_ACC]` (R44). -/
  waitAcc : Word
  /-- `S[OUTSTANDING]` (R45). -/
  outstanding : Option Outstanding
  /-- `faulted` (R46). -/
  faulted : Option Fault
  /-- The implementation parameters (R6); no step writes them. MODEL's own (log 3). -/
  params : Params
  /-- The moves the agents make next, oldest first. MODEL's own (log 1). -/
  script : List Move
  /-- How many free answers have been drawn. MODEL's own (log 2). -/
  draws : Nat
  /-- The word the last host read returned. MODEL's own (log 9). -/
  readData : Option Word
deriving DecidableEq, Repr

/-- The reset value of every field (R280), for given parameters. -/
def State.resetOf (p : Params) : State where
  arg0 := 0#32
  result := 0#32
  vStatus := .none
  tData := 0#17
  tStatus := .none
  hData := 0#17
  hStatus := .none
  calOffset := 0#32
  partId := 0#16
  uidLo := 0#32
  uidHi := 0#32
  busy := false
  initState := .uninit
  convPending := false
  lastOpc := 0#4
  cmdErr := .none
  phase := .idle
  curCmd := 0#32
  curArg := 0#32
  waitAcc := 0#32
  outstanding := none
  faulted := none
  params := p
  script := []
  draws := 0
  readData := none

/-- The block right after reset, at the start of a run (R280, R46), with the default parameters of R6. -/
def State.reset : State := State.resetOf defaultParams

end Sys2Proof.Machine
end

