-- ==== Sys2Proof/Machine/Flags.lean ====
section
/-! DEFINITION. The numeric codes of statuses and errors (30_encoding.md R97, R98) and the fields of `CTRL_STAT`
(10_state.md R36 to R42). -/

namespace Sys2Proof.Machine

/-- The numeric status code (R97). -/
def statusCode : Status → BitVec 3
  | .none => 0#3
  | .ok => 1#3
  | .invalid => 2#3
  | .crcError => 3#3
  | .busError => 4#3

/-- The numeric value of `INIT_STATE` (R38). -/
def initStateCode : InitState → BitVec 2
  | .uninit => 0#2
  | .ready => 1#2
  | .failed => 2#2

/-- The numeric command error code (R98). -/
def cmdErrCode : CmdErr → BitVec 4
  | .none => 0#4
  | .notReady => 1#4
  | .illegal => 2#4
  | .badArg => 3#4
  | .bus => 4#4
  | .idMismatch => 5#4
  | .range => 6#4

/-- `CTRL_STAT.CONV_ELAPSED`, derived and not stored (R40). -/
def convElapsed (s : State) : Bool := s.convPending && s.params.tConvMs.toNat ≤ s.waitAcc.toNat

/-- `CTRL_STAT` as the host reads it; bits not listed in R36 read 0. -/
def ctrlStat (s : State) : Word :=
  0#16 ++ cmdErrCode s.cmdErr ++ s.lastOpc ++ 0#3 ++ BitVec.ofBool (convElapsed s) ++ BitVec.ofBool s.convPending
    ++ initStateCode s.initState ++ BitVec.ofBool s.busy

/-- `S[WAIT_ACC]` after `ms` more milliseconds, saturating at `2^32 - 1` (R44, 40_protocol.md R137). -/
def addWait (acc : Word) (ms : BitVec 24) : Word := BitVec.ofNat 32 (min (acc.toNat + ms.toNat) (2 ^ 32 - 1))

end Sys2Proof.Machine
end

