-- ==== Sys2Proof/WellFormed.lean ====
section
/-! DEFINITION. Which command words, operands and parameter values are well formed. The opcode table is written here
as the spec's match and mask columns (30_encoding.md R95); Decode.lean reads the fields (R96), and the two are proved to
agree elsewhere. -/

namespace Sys2Proof

/-- One row of the opcode map (R95). -/
structure OpcodeRow where
  mnemonic : String
  pattern : Word
  mask : Word
deriving DecidableEq, Repr

/-- The whole command space (R95). -/
def opcodeTable : List OpcodeRow :=
  [⟨"INIT", 0x00000001#32, 0xFFFFFEFF#32⟩,
   ⟨"RESET", 0x00000002#32, 0xFFFFFFFF#32⟩,
   ⟨"SETLP", 0x00000003#32, 0xFFFFFEFF#32⟩,
   ⟨"READID", 0x00000004#32, 0xFFFFFFFF#32⟩,
   ⟨"START", 0x00000005#32, 0xFFFFFFFF#32⟩,
   ⟨"WAIT", 0x00000006#32, 0x000000FF#32⟩,
   ⟨"READ", 0x00000007#32, 0xFFFFFFFF#32⟩,
   ⟨"MEASURE", 0x00000008#32, 0xFFFFFFFF#32⟩,
   ⟨"VALIDATE", 0x00000009#32, 0xFFFFFFFF#32⟩,
   ⟨"KELVIN", 0x0000000A#32, 0x0000FCFF#32⟩,
   ⟨"CELSIUS", 0x0000000B#32, 0x0000FCFF#32⟩,
   ⟨"FAHRENHEIT", 0x0000000C#32, 0x0000FCFF#32⟩,
   ⟨"HUMIDITY", 0x0000000D#32, 0x0000FCFF#32⟩]

/-- A word spells a row's command when `(w & mask) == match` (R95). -/
def OpcodeRow.spells (r : OpcodeRow) (w : Word) : Bool := w &&& r.mask == r.pattern

/-- The word matches a row: it is no illegal encoding (R95, R100). -/
def wordWf (w : Word) : Bool := opcodeTable.any (·.spells w)

/-- The operands of a format-C command are legal: `SRC` is not the reserved 3 and `1 <= MULT <= MULT_MAX` (R94, R101). -/
def conversionArgsLegal (p : Params) (src : BitVec 2) (mult : BitVec 16) : Bool :=
  src.toNat != 3 && mult.toNat != 0 && mult.toNat ≤ p.multMax.toNat

/-- The operands of a command are legal; no format but C has argument errors (R101). Every operand field of an
`Instr` has the width of its encoding, so every term has an encoding. -/
def Instr.argsLegal (p : Params) : Instr → Bool
  | .init _ => true
  | .reset => true
  | .setlp _ => true
  | .readid => true
  | .start => true
  | .wait _ => true
  | .read => true
  | .measure => true
  | .validate => true
  | .kelvin src mult => conversionArgsLegal p src mult
  | .celsius src mult => conversionArgsLegal p src mult
  | .fahrenheit src mult => conversionArgsLegal p src mult
  | .humidity src mult => conversionArgsLegal p src mult

/-- `READ_MODE = COMBINED` takes `REG_H_VAL = REG_T_VAL + WORD_BYTES` as a precondition (20_memory.md R70). -/
def Params.combinedReadable (p : Params) : Bool :=
  p.readMode != .combined || p.regHVal.toNat == p.regTVal.toNat + Machine.wordBytes p.layout

/-- The generator has degree 7 (41_validator.md R181). -/
def Params.generatorDegree7 (p : Params) : Bool := p.crcPoly.getLsbD 7

/-- A read transaction asks for at least one byte (20_memory.md R63). -/
def Params.readsSomeBytes (p : Params) : Bool := p.partIdBytes != 0 && p.uidBytes != 0

/-- Every valid code is a value of the validity field (41_validator.md R184). -/
def Params.validCodesFit (p : Params) : Bool := p.validCodes.all (· < 2 ^ Machine.validW p.layout)

/-- The parameter values are ones the spec's rules allow. -/
def Params.wf (p : Params) : Bool :=
  p.combinedReadable && p.generatorDegree7 && p.readsSomeBytes && p.validCodesFit

end Sys2Proof
end

