-- ==== Sys2Proof/Machine/Operands.lean ====
section
/-! DEFINITION. The operands of the commands: integers read from words (00_scope.md R10), words assembled from bytes
(20_memory.md R65), the raw input of a conversion (42_converter.md R216), `INIT`'s offset (30_encoding.md R92) and the
argument check of the prologue (30_encoding.md R101). -/

namespace Sys2Proof.Machine

/-- `toInt32` (R10). -/
def toInt32 (w : Word) : Int := w.toInt

/-- `fitsInt32` (R10). -/
def fitsInt32 (n : Int) : Bool := -(2 ^ 31) ≤ n && n ≤ 2 ^ 31 - 1

/-- `LE`: the first byte is the least significant (R65). -/
def le : List Byte → Nat
  | [] => 0
  | b :: bs => b.toNat + 256 * le bs

/-- A measurement word assembled from its bytes, zero-extended to 32 bits (R65). -/
def leWord (bytes : List Byte) : Word := BitVec.ofNat 32 (le bytes)

/-- The raw input that `SRC` selects (R216). The prologue refuses `SRC = 3`, which selects nothing. -/
def rawSource (src : BitVec 2) (s : State) : Option Int :=
  match src.toNat with
  | 0 => some (toInt32 s.curArg)
  | 1 => some s.tData.toNat
  | 2 => some s.hData.toNat
  | _ => none

/-- The offset `INIT` takes: the default, or the latched `ARG0` (R92, 40_protocol.md R132). -/
def initOffset (useDefault : Bool) (s : State) : Word := if useDefault then s.params.defaultOffset else s.curArg

/-- The operands of a command are refused with `BAD_ARG` (R101, 40_protocol.md R131). -/
def badArg (p : Params) : Instr → Bool
  | .kelvin src mult => src.toNat == 3 || mult.toNat == 0 || p.multMax.toNat < mult.toNat
  | .celsius src mult => src.toNat == 3 || mult.toNat == 0 || p.multMax.toNat < mult.toNat
  | .fahrenheit src mult => src.toNat == 3 || mult.toNat == 0 || p.multMax.toNat < mult.toNat
  | .humidity src mult => src.toNat == 3 || mult.toNat == 0 || p.multMax.toNat < mult.toNat
  | .init _ => false
  | .reset => false
  | .setlp _ => false
  | .readid => false
  | .start => false
  | .wait _ => false
  | .read => false
  | .measure => false
  | .validate => false

/-- The command is `INIT`, which the `NOT_READY` check lets pass (R131). -/
def isInit : Instr → Bool
  | .init _ => true
  | .reset => false
  | .setlp _ => false
  | .readid => false
  | .start => false
  | .wait _ => false
  | .read => false
  | .measure => false
  | .validate => false
  | .kelvin _ _ => false
  | .celsius _ _ => false
  | .fahrenheit _ _ => false
  | .humidity _ _ => false

end Sys2Proof.Machine
end

