-- ==== Sys2Proof/Machine/Ops.lean ====
section
/-! DEFINITION. The operations every command and agent is written with: ending a command (60_exceptions.md R252), raising
a model fault (R259), the prologue (40_protocol.md R131), issuing and answering external requests (10_state.md R45), the
host's reads and writes (20_memory.md R62), command acceptance (R130) and block reset (70_reset_and_hazards.md R280).
The block has no trap, no saved state and no return (R250, R257): `finish` and `raiseFault` are what it has instead. -/

namespace Sys2Proof.Machine

/-! ## Ending a command -/

/-- `finish(err)`; the commit group of the command is applied to `s` first, in the same step (R252). -/
def finish (err : CmdErr) (s : State) : State :=
  { s with
    lastOpc := opcodeField s.curCmd
    cmdErr := err
    busy := false
    outstanding := none
    phase := .idle }

/-- `raise Fault(f)`: the fault is recorded and the state is otherwise left as it was (R259). -/
def raiseFault (f : Fault) (s : State) : State := { s with faulted := some f }

/-- `CONV_PENDING <- 0; WAIT_ACC <- 0` (R39, R44). -/
def clearConversion (s : State) : State := { s with convPending := false, waitAcc := 0#32 }

/-- `CONV_PENDING <- 1; WAIT_ACC <- 0`, the effect of a successful `START` trigger (R39, R44). -/
def beginConversion (s : State) : State := { s with convPending := true, waitAcc := 0#32 }

/-! ## The prologue -/

/-- The prologue of step 1, after the word decoded to `i` (R131): `NOT_READY` before `BAD_ARG` before the body (R253). -/
def prologue (i : Instr) (s : State) (body : Result State) : Result State :=
  if s.initState ≠ .ready ∧ isInit i = false then .next (finish .notReady s)
  else if badArg s.params i then .next (finish .badArg s)
  else body

/-! ## External requests -/

/-- The index of the running command's next step; 0 in `IDLE` (R23). -/
def stepIndex (s : State) : Nat :=
  match s.phase with
  | .idle => 0
  | .exec _ k _ => k

/-- The locals of the running command (R45). -/
def stepLocals (s : State) : Locals :=
  match s.phase with
  | .idle => Locals.start
  | .exec _ _ l => l

/-- Issue a request; the sequencer's next step is `k`, with locals `l` (R23, R45). -/
def issue (r : Request) (k : Nat) (l : Locals) (s : State) : State :=
  { s with
    outstanding := some { request := r, answer := none }
    phase := .exec (opcodeField s.curCmd) k l }

/-- The sequencer waits for an answer that has not come (R23). -/
def waiting (s : State) : Bool :=
  match s.outstanding with
  | some { answer := none, .. } => true
  | _ => false

/-- Consume the answer to a write. -/
def onAck (s : State) (f : Bool → Result State) : Result State :=
  match s.outstanding with
  | some { answer := some (.ack ok), .. } => f ok
  | _ => .refused .sequencerIncoherent

/-- Consume the answer to a read. -/
def onData (s : State) (f : Bool → List Byte → Result State) : Result State :=
  match s.outstanding with
  | some { answer := some (.data ok bytes), .. } => f ok bytes
  | _ => .refused .sequencerIncoherent

/-- Consume the answer to a delay. -/
def onDone (s : State) (k : Result State) : Result State :=
  match s.outstanding with
  | some { answer := some .done, .. } => k
  | _ => .refused .sequencerIncoherent

/-- The answer a bus agent's move gives to a request: a write takes the success flag, a read also its `n` bytes; a move
with another number of bytes, or to a delay, is no answer (R63; log 8). -/
def busAnswer (r : Request) (ok : Bool) (bytes : List Byte) : Option Answer :=
  match r with
  | .busWrite _ _ => some (.ack ok)
  | .busRead _ n => if bytes.length = n then some (.data ok bytes) else none
  | .delay _ => none

/-- The answer the delay agent gives to a request (R66). -/
def delayAnswer (r : Request) : Option Answer :=
  match r with
  | .busWrite _ _ => none
  | .busRead _ _ => none
  | .delay _ => some .done

/-- An external agent answers the outstanding request if it has one without an answer; an answer that comes when there
is none, as after a reset, is discarded (R45, R280; log 8). -/
def answerWith (f : Request → Option Answer) (s : State) : State :=
  match s.outstanding with
  | some { request := r, answer := none } => { s with outstanding := some { request := r, answer := f r } }
  | _ => s

/-- The freely drawn answer number `n` to a request (R63, R66, R293; log 2). -/
def freeAnswer (n : Nat) (r : Request) : Option Answer :=
  match r with
  | .busWrite _ _ => some (.ack (Config.freeOk n))
  | .busRead _ count => some (.data (Config.freeOk n) ((List.range count).map (Config.freeByte n)))
  | .delay _ => some .done

/-- The agent asked answers with the next free draw (R293; log 2). -/
def drawAnswer (s : State) : State := { answerWith (freeAnswer s.draws) s with draws := s.draws + 1 }

/-! ## The host register space -/

/-- The registers of the host register space (20_memory.md R61). -/
inductive HostReg where
  | cmd
  | ctrlStat
  | arg0
  | result
  | vStatus
  | tData
  | tStatus
  | hData
  | hStatus
  | calOffset
  | partId
  | uidLo
  | uidHi
deriving DecidableEq, Repr

/-- The byte offset of a register (R61). -/
def regOffset : HostReg → BitVec 6
  | .cmd => 0x00#6
  | .ctrlStat => 0x04#6
  | .arg0 => 0x08#6
  | .result => 0x0C#6
  | .vStatus => 0x10#6
  | .tData => 0x14#6
  | .tStatus => 0x18#6
  | .hData => 0x1C#6
  | .hStatus => 0x20#6
  | .calOffset => 0x24#6
  | .partId => 0x28#6
  | .uidLo => 0x2C#6
  | .uidHi => 0x30#6

/-- The register at a byte offset; none at an unaligned or unmapped one (R61, R62). -/
def regAt (off : BitVec 6) : Option HostReg :=
  match off.toNat with
  | 0x00 => some .cmd
  | 0x04 => some .ctrlStat
  | 0x08 => some .arg0
  | 0x0C => some .result
  | 0x10 => some .vStatus
  | 0x14 => some .tData
  | 0x18 => some .tStatus
  | 0x1C => some .hData
  | 0x20 => some .hStatus
  | 0x24 => some .calOffset
  | 0x28 => some .partId
  | 0x2C => some .uidLo
  | 0x30 => some .uidHi
  | _ => none

/-- What a host read of a register returns (R62): `CMD` reads 0, narrower contents are zero-extended (R21). -/
def readReg (s : State) : HostReg → Word
  | .cmd => 0#32
  | .ctrlStat => ctrlStat s
  | .arg0 => s.arg0
  | .result => s.result
  | .vStatus => (statusCode s.vStatus).setWidth 32
  | .tData => s.tData.setWidth 32
  | .tStatus => (statusCode s.tStatus).setWidth 32
  | .hData => s.hData.setWidth 32
  | .hStatus => (statusCode s.hStatus).setWidth 32
  | .calOffset => s.calOffset
  | .partId => s.partId.setWidth 32
  | .uidLo => s.uidLo
  | .uidHi => s.uidHi

/-- Latch a command word and its operand and start the sequencer (R130, R43). -/
def acceptCommand (w : Word) (s : State) : State :=
  { s with
    curCmd := w
    curArg := s.arg0
    busy := true
    phase := .exec (opcodeField w) 1 Locals.start }

/-- `OfferCommand(w)` (R130). -/
def offerCommand (w : Word) (s : State) : State :=
  if s.busy then raiseFault .cmdWhileBusy s else acceptCommand w s

/-- A 32-bit host write to a register; a read-only register ignores it (R62). -/
def writeReg (r : HostReg) (v : Word) (s : State) : State :=
  match r with
  | .cmd => offerCommand v s
  | .arg0 => { s with arg0 := v }
  | .ctrlStat => s
  | .result => s
  | .vStatus => s
  | .tData => s
  | .tStatus => s
  | .hData => s
  | .hStatus => s
  | .calOffset => s
  | .partId => s
  | .uidLo => s
  | .uidHi => s

/-- A host access (R62): unmapped, unaligned or not of 32 bits is `Fault(HostAccess)`. A read changes no state of the
block; the word it returns stands in `readData` (log 9). -/
def hostAccess (a : HostAccess) (s : State) : State :=
  match a with
  | .read off width =>
    match regAt off with
    | some r => if width = 32 then { s with readData := some (readReg s r) } else raiseFault .hostAccess s
    | none => raiseFault .hostAccess s
  | .write off width v =>
    match regAt off with
    | some r => if width = 32 then writeReg r v s else raiseFault .hostAccess s
    | none => raiseFault .hostAccess s

/-! ## Block reset -/

/-- Block reset (R280): every field of the block at its reset value, a running command abandoned; `faulted`, and what is
not the block's (parameters, the agents' moves, the host's last read), unchanged (R46; log 18). -/
def blockReset (s : State) : State :=
  { State.resetOf s.params with
    faulted := s.faulted
    script := s.script
    draws := s.draws
    readData := s.readData }

end Sys2Proof.Machine
end

