-- ==== Sys2Proof/Machine/Converter.lean ====
section
/-! DEFINITION. The Unit Converter: rounding division, scale selection, the two conversion forms, and the four conversion
commands (42_converter.md). All arithmetic is on exact integers (R210). -/

namespace Sys2Proof.Machine

/-- `rdiv(n, d)`: division rounded to nearest, exact halves away from zero (R211). -/
def rdiv (n : Int) (d : Nat) : Int := n.sign * (((2 * n.natAbs + d) / (2 * d) : Nat) : Int)

/-- The units a conversion command selects (R212). -/
inductive ScaleUnit where
  | kelvin
  | celsius
  | fahrenheit
  | humidity
deriving DecidableEq, Repr

/-- One row of the scale-selection table (R212). -/
structure ScaleRow where
  a : Int
  b : Int
  d : Nat
  useOffset : Bool
deriving DecidableEq, Repr

/-- The scale-selection table (R212). -/
def scaleRow : ScaleUnit → ScaleRow
  | .kelvin => { a := 1, b := 0, d := 64, useOffset := true }
  | .celsius => { a := 100, b := -1748160, d := 6400, useOffset := true }
  | .fahrenheit => { a := 900, b := -14709440, d := 32000, useOffset := true }
  | .humidity => { a := 1, b := 0, d := 512, useOffset := false }

/-- The exact numerator `A*m*t + B*m` (R213). -/
def numerator (u : ScaleUnit) (raw : Int) (m : Nat) (off : Int) : Int :=
  (scaleRow u).a * m * (if (scaleRow u).useOffset then raw - off else raw) + (scaleRow u).b * m

/-- `Convert_EXACT` (R213). -/
def convertExact (u : ScaleUnit) (raw : Int) (m : Nat) (off : Int) : Int := rdiv (numerator u raw m off) (scaleRow u).d

/-- `Convert_TWO_TERM` (R215). -/
def convertTwoTerm (u : ScaleUnit) (raw : Int) (m : Nat) (off : Int) : Int :=
  match u with
  | .kelvin => rdiv (m * (raw - off)) 64
  | .celsius => rdiv (m * (raw - off)) 64 - rdiv (27315 * m) 100
  | .fahrenheit => rdiv (9 * m * (raw - off)) 320 - rdiv (45967 * m) 100
  | .humidity => rdiv (m * raw) 512

/-- `Convert` (R225). -/
def convert (f : ConvForm) (u : ScaleUnit) (raw : Int) (m : Nat) (off : Int) : Int :=
  match f with
  | .exact => convertExact u raw m off
  | .twoTerm => convertTwoTerm u raw m off

/-- The commit group of a conversion: `RESULT <- r[31:0]` (R226). -/
def commitConverted (r : Int) (s : State) : State := { s with result := BitVec.ofInt 32 r }

/-- The end of a conversion: the result if it fits in 32 signed bits, else `RANGE` (R218, R226). -/
def finishConverted (r : Int) (s : State) : State :=
  if fitsInt32 r then finish .none (commitConverted r s) else finish .range s

/-- The value a conversion command computes from the raw input (R226). -/
def converted (u : ScaleUnit) (raw : Int) (mult : BitVec 16) (s : State) : Int :=
  convert s.params.convForm u raw mult.toNat (toInt32 s.calOffset)

/-- Step 1 of the four conversion commands (R226). `SRC = 3` selects nothing and does not pass the prologue (log 16). -/
def conversion (i : Instr) (u : ScaleUnit) (src : BitVec 2) (mult : BitVec 16) (s : State) : Result State :=
  match stepIndex s with
  | 1 =>
    prologue i s
      (match rawSource src s with
       | some raw => .next (finishConverted (converted u raw mult s) s)
       | none => .next (finish .badArg s))
  | _ => .refused .sequencerIncoherent

/-- `KELVIN` (R219). -/
def execKelvin (src : BitVec 2) (mult : BitVec 16) (s : State) : Result State :=
  conversion (.kelvin src mult) .kelvin src mult s

/-- `CELSIUS` (R220). -/
def execCelsius (src : BitVec 2) (mult : BitVec 16) (s : State) : Result State :=
  conversion (.celsius src mult) .celsius src mult s

/-- `FAHRENHEIT` (R221). -/
def execFahrenheit (src : BitVec 2) (mult : BitVec 16) (s : State) : Result State :=
  conversion (.fahrenheit src mult) .fahrenheit src mult s

/-- `HUMIDITY` (R222). -/
def execHumidity (src : BitVec 2) (mult : BitVec 16) (s : State) : Result State :=
  conversion (.humidity src mult) .humidity src mult s

end Sys2Proof.Machine
end

