-- ==== Sys2Proof/Machine/Validator.lean ====
section
/-! DEFINITION. The Data Validator: fields, check code, classification, and the `VALIDATE` command (41_validator.md). -/

namespace Sys2Proof.Machine

/-- `v[lsb+w-1 : lsb]` by shift and mask on a 32-bit value (R9, R180). -/
def bitField (v : Word) (lsb w : Nat) : Word := (v >>> lsb) &&& BitVec.ofNat 32 (2 ^ w - 1)

/-- The data field of a measurement word (R180). -/
def dataField (l : Layout) (mw : Word) : Word := bitField mw 0 (dataW l)

/-- The validity field (R180). -/
def validField (l : Layout) (mw : Word) : Word := bitField mw (validLsb l) (validW l)

/-- The check-code field (R180). -/
def codeField (l : Layout) (mw : Word) : Word := bitField mw (codeLsb l) (codeW l)

/-- The payload, `VALID ++ DATA` (R180). -/
def payloadField (l : Layout) (mw : Word) : Word := bitField mw 0 (payloadW l)

/-- The division loop of R182 for the bits `7 + j - 1` down to 7 of the remainder. -/
def crcLoop (poly : BitVec 8) : Nat → Word → Word
  | 0, r => r
  | j + 1, r => crcLoop poly j (if r.getLsbD (j + 7) then r ^^^ (poly.setWidth 32 <<< j) else r)

/-- `CRC7(p, n)` (R182). -/
def crc7 (poly : BitVec 8) (init : BitVec 7) (p : Word) (n : Nat) : BitVec 7 :=
  (crcLoop poly n ((p <<< 7) ||| init.setWidth 32)).setWidth 7

/-- `isValid(valid)` (R184). -/
def isValid (p : Params) (valid : Word) : Bool := p.validCodes.contains valid.toNat

/-- `Classify(mw)`: the check code before the validity flag (R183). -/
def classify (p : Params) (mw : Word) : Status :=
  if (crc7 p.crcPoly p.crcInit (payloadField p.layout mw) (payloadW p.layout)).setWidth 32 ≠ codeField p.layout mw then
    .crcError
  else if isValid p (validField p.layout mw) = false then .invalid
  else .ok

/-- `Extract(mw)`: the data field, zero-extended, and the status (R185, R189). -/
def extract (p : Params) (mw : Word) : Word × Status := (dataField p.layout mw, classify p mw)

/-- `Reading(ok, mw)`: `none` for `Keep` (40_protocol.md R143). -/
def reading (p : Params) (ok : Bool) (mw : Word) : Option Word × Status :=
  if ok then (some (extract p mw).1, (extract p mw).2) else (none, .busError)

/-- The commit group of `VALIDATE` (R186). -/
def commitValidated (v : Word × Status) (s : State) : State := { s with result := v.1, vStatus := v.2 }

/-- `VALIDATE` (R186). -/
def execValidate (s : State) : Result State :=
  match stepIndex s with
  | 1 => prologue .validate s (.next (finish .none (commitValidated (extract s.params s.curArg) s)))
  | _ => .refused .sequencerIncoherent

end Sys2Proof.Machine
end

