-- ==== Sys2Proof/Machine/Protocol.lean ====
section
/-! DEFINITION. The Register Protocol's subroutines and commands (40_protocol.md). A command's step `k` consumes the
answer to the request that its earlier step issued; each request ends a step (R11, R23; log 7). -/

namespace Sys2Proof.Machine

/-! ## Subroutines -/

/-- Issue write `j` (counted from 0) of `TRIGGER_WRITES`; its answer is consumed by step `j + 2`. With no such write the
trigger has succeeded (R140; log 15). -/
def triggerIssue (j : Nat) (s : State) (done : Bool → Result State) : Result State :=
  match s.params.triggerWrites[j]? with
  | some (a, v) => .next (issue (.busWrite a v) (j + 2) (stepLocals s) s)
  | none => done true

/-- Step `j + 2` of a triggering command: write `j` was answered; stop at the first failure (R140). -/
def triggerStep (j : Nat) (s : State) (done : Bool → Result State) : Result State :=
  onAck s fun ok => if ok then triggerIssue (j + 1) s done else done false

/-- The first read of `ReadWords`, issued by step `base` of its command (R141). -/
def readIssue (base : Nat) (s : State) : State :=
  match s.params.readMode with
  | .split => issue (.busRead s.params.regTVal (wordBytes s.params.layout)) (base + 1) (stepLocals s) s
  | .combined => issue (.busRead s.params.regTVal (2 * wordBytes s.params.layout)) (base + 1) (stepLocals s) s

/-- The data register after a reading: kept when there is none (R28, R30, R143). -/
def readingData (old : BitVec 17) (d : Option Word) : BitVec 17 :=
  match d with
  | some w => w.setWidth 17
  | none => old

/-- The commit group of `READ` and `MEASURE` from the two readings (R138, R139). -/
def commitReadings (t h : Option Word × Status) (s : State) : State :=
  clearConversion
    { s with
      tData := readingData s.tData t.1
      tStatus := t.2
      hData := readingData s.hData h.1
      hStatus := h.2 }

/-- The finishing step of `READ` and `MEASURE` (R138, R139). -/
def finishReadings (okT : Bool) (mwT : Word) (okH : Bool) (mwH : Word) (s : State) : State :=
  finish (if okT && okH then .none else .bus) (commitReadings (reading s.params okT mwT) (reading s.params okH mwH) s)

/-- Step `base + 1` of a reading command: the first read was answered (R141, 20_memory.md R70). -/
def readFirst (base : Nat) (s : State) : Result State :=
  onData s fun ok bytes =>
    match s.params.readMode with
    | .split =>
      .next (issue (.busRead s.params.regHVal (wordBytes s.params.layout)) (base + 2)
        { stepLocals s with tOk := ok, tWord := leWord bytes } s)
    | .combined =>
      .next (finishReadings ok (leWord (bytes.take (wordBytes s.params.layout))) ok
        (leWord (bytes.drop (wordBytes s.params.layout))) s)

/-- Step `base + 2` of a reading command: the second read was answered; there is none under `COMBINED` (R141). -/
def readSecond (s : State) : Result State :=
  match s.params.readMode with
  | .split => onData s fun ok bytes => .next (finishReadings (stepLocals s).tOk (stepLocals s).tWord ok (leWord bytes) s)
  | .combined => .refused .sequencerIncoherent

/-- The part-identifier read of `ReadIdentity`; its answer is consumed by step `k` (R142). -/
def identityIssue (k : Nat) (s : State) : State :=
  issue (.busRead s.params.regPartId s.params.partIdBytes) k (stepLocals s) s

/-- The step that consumes the part identifier and reads the unique identifier, whose answer step `k` consumes; a failed
read ends in `failed` and issues no second read (R142). -/
def identityFirst (k : Nat) (s : State) (failed : State) : Result State :=
  onData s fun ok bytes =>
    if ok then
      .next (issue (.busRead s.params.regUid s.params.uidBytes) k
        { stepLocals s with partId := BitVec.ofNat 16 (le bytes) } s)
    else .next failed

/-- The identity registers, written together (R34, R142). -/
def commitIdentity (pid : BitVec 16) (uid : BitVec 64) (s : State) : State :=
  { s with partId := pid, uidLo := uid.extractLsb' 0 32, uidHi := uid.extractLsb' 32 32 }

/-! ## Commands -/

/-- An `INIT` that ends with an error after the reset write succeeded (R132). -/
def failInit (s : State) : State := clearConversion { s with initState := .failed }

/-- The last step of `INIT`: both identity reads succeeded (R132). -/
def finishInit (pid : BitVec 16) (uid : BitVec 64) (s : State) : State :=
  if pid ≠ s.params.expectedPartId then finish .idMismatch (failInit (commitIdentity pid uid s))
  else
    finish .none
      (clearConversion { commitIdentity pid uid s with calOffset := (stepLocals s).offset, initState := .ready })

/-- `INIT` (R132). Step 1 issues the reset write; step 2 consumes it and issues the boot delay, if there is one, or the
part-identifier read; step 3 consumes the delay; step 4 the part identifier; step 5 the unique identifier. -/
def execInit (useDefault : Bool) (s : State) : Result State :=
  match stepIndex s with
  | 1 =>
    prologue (.init useDefault) s
      (.next (issue (.busWrite s.params.regSysCtrl s.params.sysCtrlReset) 2
        { stepLocals s with offset := initOffset useDefault s } s))
  | 2 =>
    onAck s fun ok =>
      if ok then
        if s.params.initBootDelayMs ≠ 0#24 then .next (issue (.delay s.params.initBootDelayMs) 3 (stepLocals s) s)
        else .next (identityIssue 4 s)
      else .next (finish .bus { s with initState := .failed })
  | 3 => onDone s (.next (identityIssue 4 s))
  | 4 => identityFirst 5 s (finish .bus (failInit s))
  | 5 =>
    onData s fun ok bytes =>
      if ok then .next (finishInit (stepLocals s).partId (BitVec.ofNat 64 (le bytes)) s)
      else .next (finish .bus (failInit s))
  | _ => .refused .sequencerIncoherent

/-- `RESET` (R133). -/
def execReset (s : State) : Result State :=
  match stepIndex s with
  | 1 => prologue .reset s (.next (issue (.busWrite s.params.regSysCtrl s.params.sysCtrlReset) 2 (stepLocals s) s))
  | 2 => onAck s fun ok => .next (if ok then finish .none (clearConversion s) else finish .bus s)
  | _ => .refused .sequencerIncoherent

/-- `SETLP` (R134). -/
def execSetlp (enable : Bool) (s : State) : Result State :=
  match stepIndex s with
  | 1 =>
    prologue (.setlp enable) s
      (.next (issue
        (.busWrite s.params.regSysCtrl (if enable then s.params.sysCtrlLowPower else s.params.sysCtrlHighPower)) 2
        (stepLocals s) s))
  | 2 => onAck s fun ok => .next (finish (if ok then .none else .bus) s)
  | _ => .refused .sequencerIncoherent

/-- `READID` (R135). -/
def execReadid (s : State) : Result State :=
  match stepIndex s with
  | 1 => prologue .readid s (.next (identityIssue 2 s))
  | 2 => identityFirst 3 s (finish .bus s)
  | 3 =>
    onData s fun ok bytes =>
      .next (if ok then finish .none (commitIdentity (stepLocals s).partId (BitVec.ofNat 64 (le bytes)) s)
        else finish .bus s)
  | _ => .refused .sequencerIncoherent

/-- The end of `START`, its trigger answered (R136; log 14). -/
def startDone (s : State) (ok : Bool) : Result State :=
  .next (if ok then finish .none (beginConversion s) else finish .bus (clearConversion s))

/-- `START` (R136): step 1 checks for a pending conversion and issues the first trigger write; step `j + 2` consumes
trigger write `j`. -/
def execStart (s : State) : Result State :=
  match stepIndex s with
  | 0 => .refused .sequencerIncoherent
  | 1 =>
    prologue .start s
      (if s.convPending then .next (raiseFault .retrigger s) else triggerIssue 0 s (startDone s))
  | j + 2 =>
    if j < s.params.triggerWrites.length then triggerStep j s (startDone s) else .refused .sequencerIncoherent

/-- `WAIT`'s commit group: the wait counts while a conversion is pending (R137). -/
def commitWait (ms : BitVec 24) (s : State) : State :=
  if s.convPending then { s with waitAcc := addWait s.waitAcc ms } else s

/-- `WAIT` (R137). -/
def execWait (ms : BitVec 24) (s : State) : Result State :=
  match stepIndex s with
  | 1 => prologue (.wait ms) s (.next (issue (.delay ms) 2 (stepLocals s) s))
  | 2 => onDone s (.next (finish .none (commitWait ms s)))
  | _ => .refused .sequencerIncoherent

/-- `READ` (R138). -/
def execRead (s : State) : Result State :=
  match stepIndex s with
  | 1 =>
    prologue .read s
      (if s.convPending && !convElapsed s then .next (raiseFault .earlyRead s) else .next (readIssue 1 s))
  | 2 => readFirst 1 s
  | 3 => readSecond s
  | _ => .refused .sequencerIncoherent

/-- `MEASURE` once its trigger is answered: the mandatory wait, or both statuses `BUS_ERROR` (R139; log 14). -/
def measureTriggered (s : State) (ok : Bool) : Result State :=
  .next
    (if ok then issue (.delay s.params.tConvMs) (s.params.triggerWrites.length + 2) (stepLocals s) s
     else finish .bus { s with tStatus := .busError, hStatus := .busError })

/-- `MEASURE` (R139). With `n` trigger writes, step `j + 2` with `j < n` consumes trigger write `j`, step `n + 2` the
conversion delay, and steps `n + 3` and `n + 4` the reads. -/
def execMeasure (s : State) : Result State :=
  match stepIndex s with
  | 0 => .refused .sequencerIncoherent
  | 1 =>
    prologue .measure s
      (if s.convPending then .next (raiseFault .retrigger s) else triggerIssue 0 s (measureTriggered s))
  | j + 2 =>
    if j < s.params.triggerWrites.length then triggerStep j s (measureTriggered s)
    else if j = s.params.triggerWrites.length then onDone s (.next (readIssue (j + 2) s))
    else if j = s.params.triggerWrites.length + 1 then readFirst (j + 1) s
    else if j = s.params.triggerWrites.length + 2 then readSecond s
    else .refused .sequencerIncoherent

end Sys2Proof.Machine
end

