-- ==== Sys2Proof/Machine/Dispatch.lean ====
section
/-! DEFINITION. Which meaning each command has: one sequencer step of it (10_state.md R23). -/

namespace Sys2Proof.Machine

def exec (i : Instr) (s : State) : Host.Outcome State Fault Refusal :=
  match i with
  | .init useDefault => Sys2Proof.Machine.execInit useDefault s
  | .reset => Sys2Proof.Machine.execReset s
  | .setlp enable => Sys2Proof.Machine.execSetlp enable s
  | .readid => Sys2Proof.Machine.execReadid s
  | .start => Sys2Proof.Machine.execStart s
  | .wait ms => Sys2Proof.Machine.execWait ms s
  | .read => Sys2Proof.Machine.execRead s
  | .measure => Sys2Proof.Machine.execMeasure s
  | .validate => Sys2Proof.Machine.execValidate s
  | .kelvin src mult => Sys2Proof.Machine.execKelvin src mult s
  | .celsius src mult => Sys2Proof.Machine.execCelsius src mult s
  | .fahrenheit src mult => Sys2Proof.Machine.execFahrenheit src mult s
  | .humidity src mult => Sys2Proof.Machine.execHumidity src mult s

end Sys2Proof.Machine
end

