-- ==== Sys2Proof/Machine/Moves.lean ====
section
/-! DEFINITION. One move of each agent (00_scope.md R5, 60_exceptions.md R260). -/

namespace Sys2Proof.Machine

/-- A step of the running command: an illegal word finishes with `ILLEGAL` (R100, R131), any other runs its meaning. -/
def runCommand (s : State) : Result State :=
  match decode s.curCmd with
  | .error _ => .next (finish .illegal s)
  | .ok i => exec i s

/-- The sequencer's move: in `IDLE`, or while an answer is awaited, it has nothing to do (R23). -/
def sequencerMove (s : State) : Result State :=
  match s.phase with
  | .idle => .next s
  | .exec _ _ _ => if waiting s then .next s else runCommand s

/-- One agent's move. -/
def takeMove (m : Move) (s : State) : Result State :=
  match m with
  | .host a => .next (hostAccess a s)
  | .sequencer => sequencerMove s
  | .bus ok bytes => .next (answerWith (fun r => busAnswer r ok bytes) s)
  | .delayDone => .next (answerWith delayAnswer s)
  | .blockReset => .next (blockReset s)

/-- The move made when the script names none: an agent that was asked answers, with a free draw; else the sequencer moves
(70_reset_and_hazards.md R293; log 2). -/
def fairMove (s : State) : Result State :=
  if waiting s then .next (drawAnswer s) else sequencerMove s

/-- The state in which the block has just accepted the command word `w`, with no agent's move before the sequencer's
(R130; log 6). -/
def acceptedWith (w : Word) (s : State) : State :=
  acceptCommand w { s with script := [], faulted := none, outstanding := none }

end Sys2Proof.Machine
end

