-- ==== Sys2Proof/Machine/Step.lean ====
section
/-! DEFINITION. One step of the block and of the agents around it. -/

namespace Sys2Proof.Machine

/-- One step: a faulted block takes none (60_exceptions.md R259); else the agent that the script names moves, or, when the
script has run out, the agent whose turn it is (log 1, log 2). -/
def step (s : State) : Host.Outcome State Fault Refusal :=
  match s.faulted with
  | some f => .fault f
  | none =>
    match s.script with
    | [] => fairMove s
    | m :: rest => takeMove m { s with script := rest }

/-- `s` with the instruction whose bits are `w` just accepted, so that the very next step is its step 1 (log 6). A command
is one 32-bit word, so the bits above `nbits` are 0. -/
def State.withFetchWord (s : State) (nbits w : Nat) : State := acceptedWith (BitVec.ofNat 32 (w % 2 ^ nbits)) s

end Sys2Proof.Machine
end

