-- ==== Sys2Proof/Machine/Assembler.lean ====
section
/-! DEFINITION. The command syntax, the pseudo-instructions and the host-program steps (30_encoding.md R103 to R105). -/

namespace Sys2Proof.Machine

/-- The `src` operand as the syntax spells it (R103). -/
inductive RawSource where
  | arg
  | t
  | h
deriving DecidableEq, Repr

/-- The `SRC` field of a source (R94, R103). -/
def sourceField : RawSource → BitVec 2
  | .arg => 0#2
  | .t => 1#2
  | .h => 2#2

/-- One line of command syntax (R103), or a pseudo-instruction that stands for one command (R105). -/
inductive Asm where
  | init
  | initDef
  | reset
  | setlp (enable : Bool)
  | readid
  | start
  | wait (ms : BitVec 24)
  | read
  | measure
  | validate
  | kelvin (src : RawSource) (m : BitVec 16)
  | celsius (src : RawSource) (m : BitVec 16)
  | fahrenheit (src : RawSource) (m : BitVec 16)
  | humidity (src : RawSource) (m : BitVec 16)
  | waitconv
  | tempK (m : BitVec 16)
  | tempC (m : BitVec 16)
  | tempF (m : BitVec 16)
  | hum (m : BitVec 16)
deriving DecidableEq, Repr

/-- The command a line stands for; `WAITCONV` takes `T_CONV_MS` from the parameters (R103, R105). -/
def asmInstr (p : Params) : Asm → Instr
  | .init => .init false
  | .initDef => .init true
  | .reset => .reset
  | .setlp enable => .setlp enable
  | .readid => .readid
  | .start => .start
  | .wait ms => .wait ms
  | .read => .read
  | .measure => .measure
  | .validate => .validate
  | .kelvin src m => .kelvin (sourceField src) m
  | .celsius src m => .celsius (sourceField src) m
  | .fahrenheit src m => .fahrenheit (sourceField src) m
  | .humidity src m => .humidity (sourceField src) m
  | .waitconv => .wait p.tConvMs
  | .tempK m => .kelvin (sourceField .t) m
  | .tempC m => .celsius (sourceField .t) m
  | .tempF m => .fahrenheit (sourceField .t) m
  | .hum m => .humidity (sourceField .h) m

/-- The command word of a line (R103). -/
def assemble (p : Params) (a : Asm) : Word := encode (asmInstr p a)

/-- One step of a host program (R104), or a pseudo-instruction that stands for several (R105). -/
inductive HostStep where
  | wr (r : HostReg) (v : Word)
  | rd (r : HostReg)
  | poll
  | issue (a : Asm)
  | ldarg (v : Word)
  | check (v : Word)
deriving DecidableEq, Repr

/-- A host write of a register (R104). -/
def wrMove (r : HostReg) (v : Word) : Move := .host (.write (regOffset r) 32 v)

/-- A host read of a register (R104). -/
def rdMove (r : HostReg) : Move := .host (.read (regOffset r) 32)

/-- `POLL` ends when bit 0 of the word read from `CTRL_STAT` is 0 (R104). -/
def pollEnds (ctrl : Word) : Bool := ctrl.getLsbD 0 == false

/-- The host's moves of a step; a `POLL` in it reads `CTRL_STAT` `polls` times, which is how often it takes until
`pollEnds` (R104, R105). The other agents' moves come between them. -/
def hostMoves (p : Params) (polls : Nat) : HostStep → List Move
  | .wr r v => [wrMove r v]
  | .rd r => [rdMove r]
  | .poll => List.replicate polls (rdMove .ctrlStat)
  | .issue a => wrMove .cmd (assemble p a) :: List.replicate polls (rdMove .ctrlStat)
  | .ldarg v => [wrMove .arg0 v]
  | .check v => wrMove .arg0 v :: wrMove .cmd (assemble p .validate) :: List.replicate polls (rdMove .ctrlStat)

end Sys2Proof.Machine
end

