-- ==== Sys2Proof/Safety.lean ====
section
/-! DEFINITION. What every run of the block keeps, in the terms the statements use: the request each step of a command
consumes the answer of, and the invariant of the state. -/

namespace Sys2Proof.Machine

/-- The write of `TRIGGER_WRITES` whose answer step `j + 2` of a triggering command consumes (40_protocol.md R140). -/
def triggerRequest (p : Params) (j : Nat) : Option Request := (p.triggerWrites[j]?).map fun w => .busWrite w.1 w.2

/-- The first read of `ReadWords` (R141). -/
def firstReadRequest (p : Params) : Request :=
  .busRead p.regTVal (if p.readMode = .split then wordBytes p.layout else 2 * wordBytes p.layout)

/-- The second read of `ReadWords`, made under `SPLIT` only (R141). -/
def secondReadRequest (p : Params) : Option Request :=
  if p.readMode = .split then some (.busRead p.regHVal (wordBytes p.layout)) else none

/-- The requests of `INIT`, by the step that consumes the answer (R132). -/
def initRequest (p : Params) (k : Nat) : Option Request :=
  if k = 2 then some (.busWrite p.regSysCtrl p.sysCtrlReset)
  else if k = 3 then if p.initBootDelayMs ≠ 0#24 then some (.delay p.initBootDelayMs) else none
  else if k = 4 then some (.busRead p.regPartId p.partIdBytes)
  else if k = 5 then some (.busRead p.regUid p.uidBytes)
  else none

/-- The requests of `READID` (R135). -/
def readidRequest (p : Params) (k : Nat) : Option Request :=
  if k = 2 then some (.busRead p.regPartId p.partIdBytes)
  else if k = 3 then some (.busRead p.regUid p.uidBytes)
  else none

/-- The requests of `READ` (R138). -/
def readRequest (p : Params) (k : Nat) : Option Request :=
  if k = 2 then some (firstReadRequest p) else if k = 3 then secondReadRequest p else none

/-- The requests of `MEASURE` (R139). -/
def measureRequest (p : Params) (k : Nat) : Option Request :=
  if k < 2 then none
  else if k < p.triggerWrites.length + 2 then triggerRequest p (k - 2)
  else if k = p.triggerWrites.length + 2 then some (.delay p.tConvMs)
  else if k = p.triggerWrites.length + 3 then some (firstReadRequest p)
  else if k = p.triggerWrites.length + 4 then secondReadRequest p
  else none

/-- The request whose answer step `k` of a command consumes, if the command has such a step (R132 to R139). `VALIDATE` and
the conversions issue none (R186, R226). -/
def expectedRequest (p : Params) (i : Instr) (k : Nat) : Option Request :=
  match i with
  | .init _ => initRequest p k
  | .reset => if k = 2 then some (.busWrite p.regSysCtrl p.sysCtrlReset) else none
  | .setlp e => if k = 2 then some (.busWrite p.regSysCtrl (if e then p.sysCtrlLowPower else p.sysCtrlHighPower)) else none
  | .readid => readidRequest p k
  | .start => if k < 2 then none else triggerRequest p (k - 2)
  | .wait ms => if k = 2 then some (.delay ms) else none
  | .read => readRequest p k
  | .measure => measureRequest p k
  | .validate => none
  | .kelvin _ _ => none
  | .celsius _ _ => none
  | .fahrenheit _ _ => none
  | .humidity _ _ => none

/-- An answer of the kind its request asks for: a read's answer has exactly the bytes asked for (20_memory.md R63). -/
def answerFits (r : Request) (a : Answer) : Prop :=
  match r, a with
  | .busWrite _ _, .ack _ => True
  | .busRead _ n, .data _ bytes => bytes.length = n
  | .delay _, .done => True
  | _, _ => False

/-- The sequencer stands where its command can stand: at step 1 with nothing asked, or at a later step with that step's
request outstanding (10_state.md R23, R45). -/
def Positioned (s : State) (k : Nat) : Prop :=
  (k = 1 ∧ s.outstanding = none) ∨
    (k ≠ 1 ∧ ∃ i o, decode s.curCmd = .ok i ∧ s.outstanding = some o ∧ expectedRequest s.params i k = some o.request ∧
      ∀ a, o.answer = some a → answerFits o.request a)

/-- The invariant of the block: what holds of every state a run from reset comes to. -/
structure BlockInv (s : State) : Prop where
  /-- `BUSY` is 1 exactly when `S[PHASE] != IDLE` (R24). -/
  busy_iff : s.busy = true ↔ s.phase ≠ .idle
  /-- Nothing is asked of an external agent in `IDLE` (R45, R252). -/
  idle_quiet : s.phase = .idle → s.outstanding = none
  /-- The phase names the opcode of the latched command word (R23, R130). -/
  phase_opcode : ∀ op k l, s.phase = .exec op k l → op = opcodeField s.curCmd
  /-- The sequencer stands at a step its command has. -/
  positioned : ∀ op k l, s.phase = .exec op k l → Positioned s k
  /-- Past its prologue a command other than `INIT` runs in `READY` only (R38, R131). -/
  past_gate : ∀ op k l i, s.phase = .exec op k l → k ≠ 1 → decode s.curCmd = .ok i → isInit i = false → s.initState = .ready
  /-- A trigger under way was issued with no conversion pending (R284). -/
  no_retrigger : ∀ op k l i, s.phase = .exec op k l → k ≠ 1 → decode s.curCmd = .ok i → (i = .start ∨ i = .measure) →
    s.convPending = false
  /-- A `READ` under way was issued with no conversion pending, or with its time waited out (R285). -/
  no_early_read : ∀ op k l, s.phase = .exec op k l → k ≠ 1 → decode s.curCmd = .ok .read →
    s.convPending = false ∨ convElapsed s = true
  /-- `INIT` holds the offset its word and its latched operand gave (R132, R43). -/
  offset_held : ∀ op k l d, s.phase = .exec op k l → k ≠ 1 → decode s.curCmd = .ok (.init d) → l.offset = initOffset d s
  /-- `WAIT_ACC` is 0 whenever no conversion is pending (R44). -/
  wait_clear : s.convPending = false → s.waitAcc = 0#32
  /-- The data registers hold `DATA_W` bits (R28, R30). -/
  tData_fits : s.tData.toNat < 2 ^ dataW s.params.layout
  hData_fits : s.hData.toNat < 2 ^ dataW s.params.layout
  /-- `V_STATUS` is never `BUS_ERROR` (41_validator.md R183, R186). -/
  vStatus_ne : s.vStatus ≠ .busError
  /-- The two reading statuses are `NONE` together: every `READ` and `MEASURE` that writes one writes both (R29, R31). -/
  statuses_together : s.tStatus = .none ↔ s.hStatus = .none
  /-- A reserved opcode stands in `LAST_OPC` only after `ILLEGAL`, or at 0 before any command has finished (R41). -/
  reserved_lastOpc : (s.lastOpc = 0#4 ∨ s.lastOpc = 0xE#4 ∨ s.lastOpc = 0xF#4) →
    s.cmdErr = .illegal ∨ (s.lastOpc = 0#4 ∧ s.cmdErr = .none)

/-- The block at rest: no command accepted and unfinished, nothing asked, no fault (R23, R46). -/
structure AtRest (s : State) : Prop where
  phase_idle : s.phase = .idle
  not_busy : s.busy = false
  quiet : s.outstanding = none
  no_fault : s.faulted = none

/-- The block stands at step `k` of a command, with the answer `a` to request `r` there to consume (R23, R45). -/
structure AtStep (s : State) (k : Nat) (l : Locals) (o : Option Outstanding) : Prop where
  at_phase : ∃ op, s.phase = .exec op k l
  at_outstanding : s.outstanding = o

/-- The answer to a request, there to be consumed (R45). -/
def answered (r : Request) (a : Answer) : Option Outstanding := some { request := r, answer := some a }

/-- The affine value, in units of the multiplier, that a conversion approximates (42_converter.md R212). -/
def affineValue (u : ScaleUnit) (raw off : Int) : ℚ :=
  match u with
  | .kelvin => (raw - off : ℚ) / 64
  | .celsius => (raw - off : ℚ) / 64 - 27315 / 100
  | .fahrenheit => 9 * (raw - off : ℚ) / 320 - 45967 / 100
  | .humidity => (raw : ℚ) / 512

/-- A bit vector read as a polynomial over GF(2), bit `i` the coefficient of `x^i` (41_validator.md R181). -/
noncomputable def toPoly {w : Nat} (v : BitVec w) : Polynomial (ZMod 2) :=
  ∑ i ∈ Finset.range w, if v.getLsbD i then Polynomial.X ^ i else 0

end Sys2Proof.Machine
end

