-- ==== Sys2Proof/Certificates/Slice0/Obligations.lean ====
section
/-! DEFINITION. The statements about the block, each from the numbered rules of spec/. In them a state `s` is any state,
reachable or not, unless the statement asks for more. `AtStep s k l o` says that the sequencer stands at step `k` of a
command, holding the locals `l`, with `o` in `S[OUTSTANDING]` (10_state.md R23, R45); which step consumes which answer is
the model's reading of R23 (log 7). A statement about `step` or a run names the agents' moves by `s.script`, the model's
own field (log 1). No statement rests on a parameter's default value (log 3, log 4). -/

open Sys2Proof Sys2Proof.Machine

/-! ## Encodings -/

/-- 30_encoding.md R95, R103: one word of each command, written out from its row, decodes to that command. -/
def Obligations.WrittenWordsDecodeToTheirCommands : Prop :=
  decode 0x00000101#32 = .ok (.init true) ∧
  decode 0x00000002#32 = .ok .reset ∧
  decode 0x00000103#32 = .ok (.setlp true) ∧
  decode 0x00000004#32 = .ok .readid ∧
  decode 0x00000005#32 = .ok .start ∧
  decode 0x00008206#32 = .ok (.wait 130#24) ∧
  decode 0x00000007#32 = .ok .read ∧
  decode 0x00000008#32 = .ok .measure ∧
  decode 0x00000009#32 = .ok .validate ∧
  decode 0x0040010A#32 = .ok (.kelvin 1#2 64#16) ∧
  decode 0x0064010B#32 = .ok (.celsius 1#2 100#16) ∧
  decode 0x000A010C#32 = .ok (.fahrenheit 1#2 10#16) ∧
  decode 0x0064020D#32 = .ok (.humidity 2#2 100#16)

/-- Decoding the encoding of any command, with every operand at every value its field admits, gives it back. -/
def Obligations.DecodeOfEncodeIsTheCommand : Prop :=
  ∀ i : Instr, decode (encode i) = .ok i

/-- A word that decodes is the encoding of what it decodes to: the decoder lets no reserved bit pass (R96, R100). -/
def Obligations.EncodeOfDecodeIsTheWord : Prop :=
  ∀ (w : Word) (i : Instr), decode w = .ok i → encode i = w

/-- R95: a word decodes exactly when it matches a row of the opcode map, no word matches two, and the command's word
matches the row that carries its opcode. -/
def Obligations.DecodableWordsAreTheTableRows : Prop :=
  (∀ w : Word, (∃ i, decode w = .ok i) ↔ ∃ r ∈ opcodeTable, w &&& r.mask = r.pattern) ∧
  (∀ (w : Word), ∀ r ∈ opcodeTable, ∀ r' ∈ opcodeTable,
    w &&& r.mask = r.pattern → w &&& r'.mask = r'.pattern → r = r') ∧
  (∀ (w : Word) (i : Instr), decode w = .ok i →
    ∀ r ∈ opcodeTable, w &&& r.mask = r.pattern → opcodeField r.pattern = opcodeOf i)

/-- R103: the encodings of the command syntax that have operands. -/
def Obligations.SyntaxAssemblesToItsEncodings : Prop :=
  ∀ (p : Params) (ms : BitVec 24) (src : RawSource) (m : BitVec 16),
    assemble p .init = 0x00000001#32 ∧ assemble p .initDef = 0x00000101#32 ∧ assemble p .reset = 0x00000002#32 ∧
    assemble p (.setlp false) = 0x00000003#32 ∧ assemble p (.setlp true) = 0x00000103#32 ∧
    assemble p .readid = 0x00000004#32 ∧ assemble p .start = 0x00000005#32 ∧
    assemble p (.wait ms) = (ms.setWidth 32 <<< 8) ||| 0x06#32 ∧
    assemble p .read = 0x00000007#32 ∧ assemble p .measure = 0x00000008#32 ∧ assemble p .validate = 0x00000009#32 ∧
    assemble p (.kelvin src m) = (m.setWidth 32 <<< 16) ||| ((sourceField src).setWidth 32 <<< 8) ||| 0x0A#32 ∧
    assemble p (.celsius src m) = (m.setWidth 32 <<< 16) ||| ((sourceField src).setWidth 32 <<< 8) ||| 0x0B#32 ∧
    assemble p (.fahrenheit src m) = (m.setWidth 32 <<< 16) ||| ((sourceField src).setWidth 32 <<< 8) ||| 0x0C#32 ∧
    assemble p (.humidity src m) = (m.setWidth 32 <<< 16) ||| ((sourceField src).setWidth 32 <<< 8) ||| 0x0D#32 ∧
    sourceField .arg = 0#2 ∧ sourceField .t = 1#2 ∧ sourceField .h = 2#2

/-- R97, R98: the numbers of the status codes and of the command error codes, and which are never produced. R97 marks the
numbers of the statuses as general knowledge: they are PRESUMED (log 4). -/
def Obligations.StatusAndErrorCodesAreNumbered : Prop :=
  statusCode .none = 0#3 ∧ statusCode .ok = 1#3 ∧ statusCode .invalid = 2#3 ∧ statusCode .crcError = 3#3 ∧
  statusCode .busError = 4#3 ∧
  cmdErrCode .none = 0#4 ∧ cmdErrCode .notReady = 1#4 ∧ cmdErrCode .illegal = 2#4 ∧ cmdErrCode .badArg = 3#4 ∧
  cmdErrCode .bus = 4#4 ∧ cmdErrCode .idMismatch = 5#4 ∧ cmdErrCode .range = 6#4 ∧
  (∀ c, (statusCode c).toNat < 5) ∧ (∀ e, (cmdErrCode e).toNat < 7)

/-! ## The step -/

/-- The sequencer's move in a running command, no answer awaited, is the meaning of the command that the latched word
decodes to (R23, R131); it is made when the script names the sequencer, and when the script has run out (log 1, log 2). -/
def Obligations.StepRunsTheDecodedCommand : Prop :=
  ∀ (s : State) (i : Instr) (op : BitVec 4) (k : Nat) (l : Locals),
    s.faulted = none → s.phase = .exec op k l → (∀ r, s.outstanding ≠ some { request := r, answer := none }) →
    decode s.curCmd = .ok i →
    (∀ rest, s.script = .sequencer :: rest → step s = exec i { s with script := rest }) ∧
    (s.script = [] → step s = exec i s)

/-- The model's own placing of an instruction, its choice (log 6): the very next step runs it. -/
def Obligations.PlacedWordRunsAtTheNextStep : Prop :=
  ∀ (s : State) (w : Nat) (i : Instr), decodeTableWord 32 w = some i →
    step (s.withFetchWord 32 w) = exec i (s.withFetchWord 32 w)

/-- R100: a word that matches no row, offered to a block at rest, is accepted, sets `BUSY`, and its first sequencer step
finishes it with `ILLEGAL`, writing `LAST_OPC` and changing nothing else that the host can see. -/
def Obligations.IllegalWordIsAcceptedAndFinishesIllegal : Prop :=
  ∀ (s : State) (w : Word) (rest : List Move), AtRest s → (∀ r ∈ opcodeTable, w &&& r.mask ≠ r.pattern) →
    s.script = .host (.write 0x00#6 32 w) :: .sequencer :: rest →
    (∃ a, step s = .next a ∧ a.busy = true ∧ a.faulted = none) ∧
    Sys2Proof.core.run 2 s =
      .next { s with
        script := rest
        curCmd := w
        curArg := s.arg0
        lastOpc := w.extractLsb' 0 4
        cmdErr := .illegal }

/-- R252: `finish(err)` writes exactly these five fields. -/
def Obligations.FinishWritesExactlyItsFields : Prop :=
  ∀ (e : CmdErr) (s : State),
    finish e s =
      { s with
        lastOpc := s.curCmd.extractLsb' 0 4
        cmdErr := e
        busy := false
        outstanding := none
        phase := .idle }

/-- R131, R38, R253: in step 1, while `INIT_STATE` is not `READY`, every command but `INIT` finishes with `NOT_READY` and no
other effect, whatever its operands. -/
def Obligations.UnreadyBlockRefusesEveryCommandButInit : Prop :=
  ∀ (s : State) (i : Instr) (l : Locals), AtStep s 1 l none → s.initState ≠ .ready → (∀ d, i ≠ .init d) →
    exec i s = .next (finish .notReady s)

/-- R101: a format-C command with `SRC = 3`, `MULT = 0` or `MULT > MULT_MAX` finishes with `BAD_ARG` and no other effect
in a `READY` block; and a step of a command that sets `BAD_ARG`, in any state, is one of a format-C command with such an
operand. -/
def Obligations.IllegalOperandsFinishBadArg : Prop :=
  (∀ (s : State) (l : Locals) (src : BitVec 2) (mult : BitVec 16), AtStep s 1 l none → s.initState = .ready →
    (src = 3#2 ∨ mult = 0#16 ∨ s.params.multMax.toNat < mult.toNat) →
    exec (.kelvin src mult) s = .next (finish .badArg s) ∧
    exec (.celsius src mult) s = .next (finish .badArg s) ∧
    exec (.fahrenheit src mult) s = .next (finish .badArg s) ∧
    exec (.humidity src mult) s = .next (finish .badArg s)) ∧
  (∀ (s : State) (i : Instr) (t : State), exec i s = .next t → t.cmdErr = .badArg → s.cmdErr ≠ .badArg →
    ∃ src mult,
      (i = .kelvin src mult ∨ i = .celsius src mult ∨ i = .fahrenheit src mult ∨ i = .humidity src mult) ∧
      (src = 3#2 ∨ mult = 0#16 ∨ s.params.multMax.toNat < mult.toNat))

/-! ## The Register Protocol's commands -/

/-- 40_protocol.md R132 (with R142): the steps of `INIT`, from the reset write to its three ends. -/
def Obligations.InitFollowsItsSteps : Prop :=
  ∀ (s : State) (l : Locals) (d : Bool),
    (AtStep s 1 l none →
      exec (.init d) s =
        .next { s with
          outstanding := some { request := .busWrite s.params.regSysCtrl s.params.sysCtrlReset, answer := none }
          phase := .exec (opcodeField s.curCmd) 2
            { l with offset := if d then s.params.defaultOffset else s.curArg } }) ∧
    (∀ r, AtStep s 2 l (answered r (.ack false)) →
      exec (.init d) s = .next (finish .bus { s with initState := .failed })) ∧
    (∀ r, AtStep s 2 l (answered r (.ack true)) → s.params.initBootDelayMs ≠ 0#24 →
      exec (.init d) s =
        .next { s with
          outstanding := some { request := .delay s.params.initBootDelayMs, answer := none }
          phase := .exec (opcodeField s.curCmd) 3 l }) ∧
    (∀ r, (AtStep s 2 l (answered r (.ack true)) ∧ s.params.initBootDelayMs = 0#24) ∨ AtStep s 3 l (answered r .done) →
      exec (.init d) s =
        .next { s with
          outstanding := some { request := .busRead s.params.regPartId s.params.partIdBytes, answer := none }
          phase := .exec (opcodeField s.curCmd) 4 l }) ∧
    (∀ r bytes, AtStep s 4 l (answered r (.data true bytes)) →
      exec (.init d) s =
        .next { s with
          outstanding := some { request := .busRead s.params.regUid s.params.uidBytes, answer := none }
          phase := .exec (opcodeField s.curCmd) 5 { l with partId := BitVec.ofNat 16 (le bytes) } }) ∧
    (∀ r bytes, AtStep s 4 l (answered r (.data false bytes)) ∨ AtStep s 5 l (answered r (.data false bytes)) →
      exec (.init d) s =
        .next (finish .bus { s with initState := .failed, convPending := false, waitAcc := 0#32 })) ∧
    (∀ r bytes, AtStep s 5 l (answered r (.data true bytes)) → l.partId ≠ s.params.expectedPartId →
      exec (.init d) s =
        .next (finish .idMismatch { s with
          partId := l.partId
          uidLo := (BitVec.ofNat 64 (le bytes)).extractLsb' 0 32
          uidHi := (BitVec.ofNat 64 (le bytes)).extractLsb' 32 32
          initState := .failed
          convPending := false
          waitAcc := 0#32 })) ∧
    (∀ r bytes, AtStep s 5 l (answered r (.data true bytes)) → l.partId = s.params.expectedPartId →
      exec (.init d) s =
        .next (finish .none { s with
          partId := l.partId
          uidLo := (BitVec.ofNat 64 (le bytes)).extractLsb' 0 32
          uidHi := (BitVec.ofNat 64 (le bytes)).extractLsb' 32 32
          calOffset := l.offset
          initState := .ready
          convPending := false
          waitAcc := 0#32 }))

/-- 40_protocol.md R133: the two steps of `RESET`. -/
def Obligations.ResetFollowsItsSteps : Prop :=
  ∀ (s : State) (l : Locals),
    (AtStep s 1 l none → s.initState = .ready →
      exec .reset s =
        .next { s with
          outstanding := some { request := .busWrite s.params.regSysCtrl s.params.sysCtrlReset, answer := none }
          phase := .exec (opcodeField s.curCmd) 2 l }) ∧
    (∀ r, AtStep s 2 l (answered r (.ack true)) →
      exec .reset s = .next (finish .none { s with convPending := false, waitAcc := 0#32 })) ∧
    (∀ r, AtStep s 2 l (answered r (.ack false)) → exec .reset s = .next (finish .bus s))

/-- 40_protocol.md R134: the two steps of `SETLP`. -/
def Obligations.SetlpFollowsItsSteps : Prop :=
  ∀ (s : State) (l : Locals) (enable : Bool),
    (AtStep s 1 l none → s.initState = .ready →
      exec (.setlp enable) s =
        .next { s with
          outstanding := some
            { request := .busWrite s.params.regSysCtrl
                (if enable then s.params.sysCtrlLowPower else s.params.sysCtrlHighPower)
              answer := none }
          phase := .exec (opcodeField s.curCmd) 2 l }) ∧
    (∀ r ok, AtStep s 2 l (answered r (.ack ok)) →
      exec (.setlp enable) s = .next (finish (if ok then .none else .bus) s))

/-- 40_protocol.md R135 (with R142): the steps of `READID`. -/
def Obligations.ReadidFollowsItsSteps : Prop :=
  ∀ (s : State) (l : Locals),
    (AtStep s 1 l none → s.initState = .ready →
      exec .readid s =
        .next { s with
          outstanding := some { request := .busRead s.params.regPartId s.params.partIdBytes, answer := none }
          phase := .exec (opcodeField s.curCmd) 2 l }) ∧
    (∀ r bytes, AtStep s 2 l (answered r (.data true bytes)) →
      exec .readid s =
        .next { s with
          outstanding := some { request := .busRead s.params.regUid s.params.uidBytes, answer := none }
          phase := .exec (opcodeField s.curCmd) 3 { l with partId := BitVec.ofNat 16 (le bytes) } }) ∧
    (∀ r bytes, AtStep s 2 l (answered r (.data false bytes)) ∨ AtStep s 3 l (answered r (.data false bytes)) →
      exec .readid s = .next (finish .bus s)) ∧
    (∀ r bytes, AtStep s 3 l (answered r (.data true bytes)) →
      exec .readid s =
        .next (finish .none { s with
          partId := l.partId
          uidLo := (BitVec.ofNat 64 (le bytes)).extractLsb' 0 32
          uidHi := (BitVec.ofNat 64 (le bytes)).extractLsb' 32 32 }))

/-- 40_protocol.md R136 (with R140): the steps of `START`. Step `j + 2` consumes the answer to trigger write `j`; that no
trigger write at all has succeeded is the model's reading of R140's loop (log 15). -/
def Obligations.StartFollowsItsSteps : Prop :=
  ∀ (s : State) (l : Locals),
    (AtStep s 1 l none → s.initState = .ready → s.convPending = true →
      exec .start s = .next { s with faulted := some .retrigger }) ∧
    (∀ a v, AtStep s 1 l none → s.initState = .ready → s.convPending = false → s.params.triggerWrites[0]? = some (a, v) →
      exec .start s =
        .next { s with
          outstanding := some { request := .busWrite a v, answer := none }
          phase := .exec (opcodeField s.curCmd) 2 l }) ∧
    (AtStep s 1 l none → s.initState = .ready → s.convPending = false → s.params.triggerWrites = [] →
      exec .start s = .next (finish .none { s with convPending := true, waitAcc := 0#32 })) ∧
    (∀ r j, AtStep s (j + 2) l (answered r (.ack false)) → j < s.params.triggerWrites.length →
      exec .start s = .next (finish .bus { s with convPending := false, waitAcc := 0#32 })) ∧
    (∀ r j a v, AtStep s (j + 2) l (answered r (.ack true)) → s.params.triggerWrites[j + 1]? = some (a, v) →
      exec .start s =
        .next { s with
          outstanding := some { request := .busWrite a v, answer := none }
          phase := .exec (opcodeField s.curCmd) (j + 3) l }) ∧
    (∀ r j, AtStep s (j + 2) l (answered r (.ack true)) → j + 1 = s.params.triggerWrites.length →
      exec .start s = .next (finish .none { s with convPending := true, waitAcc := 0#32 }))

/-- 40_protocol.md R137 (with 10_state.md R44): the two steps of `WAIT`; the sum saturates at `2^32 - 1`. -/
def Obligations.WaitFollowsItsSteps : Prop :=
  ∀ (s : State) (l : Locals) (ms : BitVec 24),
    (AtStep s 1 l none → s.initState = .ready →
      exec (.wait ms) s =
        .next { s with
          outstanding := some { request := .delay ms, answer := none }
          phase := .exec (opcodeField s.curCmd) 2 l }) ∧
    (∀ r, AtStep s 2 l (answered r .done) → s.convPending = false → exec (.wait ms) s = .next (finish .none s)) ∧
    (∀ r, AtStep s 2 l (answered r .done) → s.convPending = true →
      ∃ acc, exec (.wait ms) s = .next (finish .none { s with waitAcc := acc }) ∧
        acc.toNat = min (s.waitAcc.toNat + ms.toNat) (2 ^ 32 - 1))

/-- 40_protocol.md R138 (with R141, R143): the steps of `READ` under both read modes. -/
def Obligations.ReadFollowsItsSteps : Prop :=
  ∀ (s : State) (l : Locals),
    (AtStep s 1 l none → s.initState = .ready → s.convPending = true → s.waitAcc.toNat < s.params.tConvMs.toNat →
      exec .read s = .next { s with faulted := some .earlyRead }) ∧
    (AtStep s 1 l none → s.initState = .ready → (s.convPending = false ∨ s.params.tConvMs.toNat ≤ s.waitAcc.toNat) →
      exec .read s =
        .next { s with
          outstanding := some
            { request := .busRead s.params.regTVal
                (if s.params.readMode = .split then wordBytes s.params.layout else 2 * wordBytes s.params.layout)
              answer := none }
          phase := .exec (opcodeField s.curCmd) 2 l }) ∧
    (∀ r ok bytes, AtStep s 2 l (answered r (.data ok bytes)) → s.params.readMode = .split →
      exec .read s =
        .next { s with
          outstanding := some { request := .busRead s.params.regHVal (wordBytes s.params.layout), answer := none }
          phase := .exec (opcodeField s.curCmd) 3 { l with tOk := ok, tWord := BitVec.ofNat 32 (le bytes) } }) ∧
    (∀ r okH bytes, AtStep s 3 l (answered r (.data okH bytes)) → s.params.readMode = .split →
      exec .read s =
        .next (finish (if l.tOk = true ∧ okH = true then .none else .bus) { s with
          tData := if l.tOk then (dataField s.params.layout l.tWord).setWidth 17 else s.tData
          tStatus := if l.tOk then classify s.params l.tWord else .busError
          hData := if okH then (dataField s.params.layout (BitVec.ofNat 32 (le bytes))).setWidth 17 else s.hData
          hStatus := if okH then classify s.params (BitVec.ofNat 32 (le bytes)) else .busError
          convPending := false
          waitAcc := 0#32 })) ∧
    (∀ r ok bytes, AtStep s 2 l (answered r (.data ok bytes)) → s.params.readMode = .combined →
      let mwT := BitVec.ofNat 32 (le (bytes.take (wordBytes s.params.layout)))
      let mwH := BitVec.ofNat 32 (le (bytes.drop (wordBytes s.params.layout)))
      exec .read s =
        .next (finish (if ok then .none else .bus) { s with
          tData := if ok then (dataField s.params.layout mwT).setWidth 17 else s.tData
          tStatus := if ok then classify s.params mwT else .busError
          hData := if ok then (dataField s.params.layout mwH).setWidth 17 else s.hData
          hStatus := if ok then classify s.params mwH else .busError
          convPending := false
          waitAcc := 0#32 }))

/-- 40_protocol.md R139 (with R140, R141, R143): the steps of `MEASURE`. With `n` trigger writes, step `j + 2` consumes
trigger write `j`, step `n + 2` the mandatory wait, and steps `n + 3` and `n + 4` the reads; `n = 0` is log 15's case. -/
def Obligations.MeasureFollowsItsSteps : Prop :=
  ∀ (s : State) (l : Locals) (n : Nat), s.params.triggerWrites.length = n →
    (AtStep s 1 l none → s.initState = .ready → s.convPending = true →
      exec .measure s = .next { s with faulted := some .retrigger }) ∧
    (∀ a v, AtStep s 1 l none → s.initState = .ready → s.convPending = false → s.params.triggerWrites[0]? = some (a, v) →
      exec .measure s =
        .next { s with
          outstanding := some { request := .busWrite a v, answer := none }
          phase := .exec (opcodeField s.curCmd) 2 l }) ∧
    (∀ r j, AtStep s (j + 2) l (answered r (.ack false)) → j < n →
      exec .measure s = .next (finish .bus { s with tStatus := .busError, hStatus := .busError })) ∧
    (∀ r j a v, AtStep s (j + 2) l (answered r (.ack true)) → s.params.triggerWrites[j + 1]? = some (a, v) →
      exec .measure s =
        .next { s with
          outstanding := some { request := .busWrite a v, answer := none }
          phase := .exec (opcodeField s.curCmd) (j + 3) l }) ∧
    (∀ r, (AtStep s (n + 1) l (answered r (.ack true)) ∧ n ≠ 0) ∨
        (AtStep s 1 l none ∧ s.initState = .ready ∧ s.convPending = false ∧ n = 0) →
      exec .measure s =
        .next { s with
          outstanding := some { request := .delay s.params.tConvMs, answer := none }
          phase := .exec (opcodeField s.curCmd) (n + 2) l }) ∧
    (∀ r, AtStep s (n + 2) l (answered r .done) →
      exec .measure s =
        .next { s with
          outstanding := some
            { request := .busRead s.params.regTVal
                (if s.params.readMode = .split then wordBytes s.params.layout else 2 * wordBytes s.params.layout)
              answer := none }
          phase := .exec (opcodeField s.curCmd) (n + 3) l }) ∧
    (∀ r ok bytes, AtStep s (n + 3) l (answered r (.data ok bytes)) → s.params.readMode = .split →
      exec .measure s =
        .next { s with
          outstanding := some { request := .busRead s.params.regHVal (wordBytes s.params.layout), answer := none }
          phase := .exec (opcodeField s.curCmd) (n + 4) { l with tOk := ok, tWord := BitVec.ofNat 32 (le bytes) } }) ∧
    (∀ r okH bytes, AtStep s (n + 4) l (answered r (.data okH bytes)) → s.params.readMode = .split →
      exec .measure s =
        .next (finish (if l.tOk = true ∧ okH = true then .none else .bus) { s with
          tData := if l.tOk then (dataField s.params.layout l.tWord).setWidth 17 else s.tData
          tStatus := if l.tOk then classify s.params l.tWord else .busError
          hData := if okH then (dataField s.params.layout (BitVec.ofNat 32 (le bytes))).setWidth 17 else s.hData
          hStatus := if okH then classify s.params (BitVec.ofNat 32 (le bytes)) else .busError
          convPending := false
          waitAcc := 0#32 })) ∧
    (∀ r ok bytes, AtStep s (n + 3) l (answered r (.data ok bytes)) → s.params.readMode = .combined →
      let mwT := BitVec.ofNat 32 (le (bytes.take (wordBytes s.params.layout)))
      let mwH := BitVec.ofNat 32 (le (bytes.drop (wordBytes s.params.layout)))
      exec .measure s =
        .next (finish (if ok then .none else .bus) { s with
          tData := if ok then (dataField s.params.layout mwT).setWidth 17 else s.tData
          tStatus := if ok then classify s.params mwT else .busError
          hData := if ok then (dataField s.params.layout mwH).setWidth 17 else s.hData
          hStatus := if ok then classify s.params mwH else .busError
          convPending := false
          waitAcc := 0#32 }))

/-! ## Whole commands -/

/-- R130 to R132, R142 at the level of runs: `INIT` offered to a block at rest, every transaction answered `ok` and no boot
delay, ends after its three transactions with the identity stored; with the expected part identifier the block is
`READY` and holds the offset, with any other it is `FAILED` and keeps the offset it had. -/
def Obligations.InitRunsToItsEnd : Prop :=
  ∀ (s : State) (d : Bool) (pid uid : List Byte) (rest : List Move), AtRest s → s.params.initBootDelayMs = 0#24 →
    pid.length = s.params.partIdBytes → uid.length = s.params.uidBytes →
    s.script = [.host (.write 0x00#6 32 (if d then 0x00000101#32 else 0x00000001#32)), .sequencer, .bus true [],
      .sequencer, .bus true pid, .sequencer, .bus true uid, .sequencer] ++ rest →
    let expected := BitVec.ofNat 16 (le pid) = s.params.expectedPartId
    Sys2Proof.core.run 8 s =
      .next { s with
        script := rest
        curCmd := if d then 0x00000101#32 else 0x00000001#32
        curArg := s.arg0
        lastOpc := 1#4
        cmdErr := if expected then .none else .idMismatch
        partId := BitVec.ofNat 16 (le pid)
        uidLo := (BitVec.ofNat 64 (le uid)).extractLsb' 0 32
        uidHi := (BitVec.ofNat 64 (le uid)).extractLsb' 32 32
        calOffset := if expected then (if d then s.params.defaultOffset else s.arg0) else s.calOffset
        initState := if expected then .ready else .failed
        convPending := false
        waitAcc := 0#32 }

/-- R139 at the level of runs, for any number `n` of trigger writes: `MEASURE` offered to a `READY` block at rest with no
conversion pending, its trigger writes acknowledged, ends after the mandatory wait and the two reads with each reading
taken from its own word, under `READ_MODE = SPLIT`. With `n = 0` the trigger has succeeded at once, which is the model's
reading of R140's loop (log 15). -/
def Obligations.MeasureRunsToItsReadings : Prop :=
  ∀ (s : State) (okT okH : Bool) (bT bH : List Byte) (rest : List Move), AtRest s → s.initState = .ready →
    s.convPending = false → s.params.readMode = .split →
    bT.length = wordBytes s.params.layout → bH.length = wordBytes s.params.layout →
    s.script = .host (.write 0x00#6 32 0x00000008#32) ::
      ((List.replicate s.params.triggerWrites.length [Move.sequencer, Move.bus true []]).flatten ++
        ([.sequencer, .delayDone, .sequencer, .bus okT bT, .sequencer, .bus okH bH, .sequencer] ++ rest)) →
    Sys2Proof.core.run (2 * s.params.triggerWrites.length + 8) s =
      .next { s with
        script := rest
        curCmd := 0x00000008#32
        curArg := s.arg0
        lastOpc := 8#4
        cmdErr := if okT = true ∧ okH = true then .none else .bus
        tData := if okT then (dataField s.params.layout (BitVec.ofNat 32 (le bT))).setWidth 17 else s.tData
        tStatus := if okT then classify s.params (BitVec.ofNat 32 (le bT)) else .busError
        hData := if okH then (dataField s.params.layout (BitVec.ofNat 32 (le bH))).setWidth 17 else s.hData
        hStatus := if okH then classify s.params (BitVec.ofNat 32 (le bH)) else .busError
        convPending := false
        waitAcc := 0#32 }

/-! ## The Data Validator -/

/-- 41_validator.md R186: `VALIDATE` writes the data field of `S[CUR_ARG]` and its status in its one step. -/
def Obligations.ValidateWritesDataAndStatus : Prop :=
  ∀ (s : State) (l : Locals), AtStep s 1 l none → s.initState = .ready →
    exec .validate s =
      .next (finish .none { s with
        result := dataField s.params.layout s.curArg
        vStatus := classify s.params s.curArg })

/-- 41_validator.md R183: the check code before the validity flag; a reading is `OK` only if both checks pass, and the
validator never answers `BUS_ERROR` or `NONE`. -/
def Obligations.ClassificationIsInPriorityOrder : Prop :=
  ∀ (p : Params) (mw : Word),
    let code := (crc7 p.crcPoly p.crcInit (payloadField p.layout mw) (payloadW p.layout)).setWidth 32
    let valid := (validField p.layout mw).toNat
    (code ≠ codeField p.layout mw → classify p mw = .crcError) ∧
    (code = codeField p.layout mw → valid ∉ p.validCodes → classify p mw = .invalid) ∧
    (code = codeField p.layout mw → valid ∈ p.validCodes → classify p mw = .ok)

/-- 30_encoding.md R99, 41_validator.md R180, R185: the fields of a measurement word as numbers; the data value is
zero-extended and below `2^DATA_W`. -/
def Obligations.FieldsAreTheLayoutsBits : Prop :=
  ∀ (mw : Word),
    (dataField .doc mw).toNat = mw.toNat % 2 ^ 17 ∧
    (validField .doc mw).toNat = mw.toNat / 2 ^ 17 % 2 ^ 2 ∧
    (codeField .doc mw).toNat = mw.toNat / 2 ^ 19 % 2 ^ 7 ∧
    (payloadField .doc mw).toNat = mw.toNat % 2 ^ 19 ∧
    (dataField .device mw).toNat = mw.toNat % 2 ^ 16 ∧
    (validField .device mw).toNat = mw.toNat / 2 ^ 16 % 2 ^ 1 ∧
    (codeField .device mw).toNat = mw.toNat / 2 ^ 17 % 2 ^ 7 ∧
    (payloadField .device mw).toNat = mw.toNat % 2 ^ 17

/-- 41_validator.md R188: words that differ only in the bits `[31:USED_W]` yield the same data and the same status. -/
def Obligations.UnusedBitsAreIgnored : Prop :=
  ∀ (p : Params) (mw mw' : Word), (∀ i, i < usedW p.layout → mw.getLsbD i = mw'.getLsbD i) →
    dataField p.layout mw = dataField p.layout mw' ∧ classify p mw = classify p mw'

/-- 41_validator.md R181, R182: the bitwise algorithm computes the remainder of `p(x) * x^7 + CRC7_INIT(x)` by the
generator, for every generator of degree 7 and every payload of `n` bits with `n + 7 <= 32`. -/
def Obligations.CheckCodeIsThePolynomialRemainder : Prop :=
  ∀ (poly : BitVec 8) (init : BitVec 7) (p : Word) (n : Nat), poly.getLsbD 7 = true → n + 7 ≤ 32 → p.toNat < 2 ^ n →
    toPoly (crc7 poly init p n) = (toPoly p * Polynomial.X ^ 7 + toPoly init) %ₘ toPoly poly

/-- 41_validator.md R187: with the default generator, flipping any one bit of `mw[USED_W-1:0]` of a word whose check code
matches makes the word a `CRC_ERROR`, under both layouts, whatever the initial vector and the valid codes. -/
def Obligations.SingleBitErrorsAreDetected : Prop :=
  ∀ (p : Params) (mw : Word) (i : Nat), p.crcPoly = 0x89#8 → i < usedW p.layout → classify p mw ≠ .crcError →
    classify p (mw ^^^ (1#32 <<< i)) = .crcError

/-- 20_memory.md R65: the bytes of a read assemble little-endian. -/
def Obligations.ReadBytesAssembleLittleEndian : Prop :=
  ∀ (bytes : List Byte), le bytes = ∑ i : Fin bytes.length, (bytes.get i).toNat * 2 ^ (8 * (i : Nat))

/-! ## The Unit Converter -/

/-- 42_converter.md R211: the formula, and what it says: the nearest integer, exact halves away from zero. -/
def Obligations.RoundingDivisionIsToNearestHalvesAway : Prop :=
  ∀ (n : Int) (d : Nat), 0 < d →
    rdiv n d = n.sign * ((2 * |n| + d) / (2 * d)) ∧
    2 * |rdiv n d * d - n| ≤ d ∧ (2 * |rdiv n d * d - n| = d → |n| < |rdiv n d * d|)

/-- 42_converter.md R219: `KELVIN` computes `rdiv(m*(raw - off), 64)` under both conversion forms. -/
def Obligations.KelvinWritesTheRoundedTemperature : Prop :=
  ∀ (s : State) (l : Locals) (src : BitVec 2) (mult : BitVec 16) (raw : Int), AtStep s 1 l none → s.initState = .ready →
    mult ≠ 0#16 → mult.toNat ≤ s.params.multMax.toNat →
    (src = 0#2 ∧ raw = s.curArg.toInt ∨ src = 1#2 ∧ raw = s.tData.toNat ∨ src = 2#2 ∧ raw = s.hData.toNat) →
    let r := rdiv (mult.toNat * (raw - s.calOffset.toInt)) 64
    (-(2 ^ 31) ≤ r ∧ r ≤ 2 ^ 31 - 1 →
      exec (.kelvin src mult) s = .next (finish .none { s with result := BitVec.ofInt 32 r })) ∧
    (¬(-(2 ^ 31) ≤ r ∧ r ≤ 2 ^ 31 - 1) → exec (.kelvin src mult) s = .next (finish .range s))

/-- 42_converter.md R220: `CELSIUS` computes `rdiv(100*m*(raw - off) - 1748160*m, 6400)` under `EXACT`, and the two
separately rounded terms of R215 under `TWO_TERM`. -/
def Obligations.CelsiusWritesTheRoundedTemperature : Prop :=
  ∀ (s : State) (l : Locals) (src : BitVec 2) (mult : BitVec 16) (raw : Int), AtStep s 1 l none → s.initState = .ready →
    mult ≠ 0#16 → mult.toNat ≤ s.params.multMax.toNat →
    (src = 0#2 ∧ raw = s.curArg.toInt ∨ src = 1#2 ∧ raw = s.tData.toNat ∨ src = 2#2 ∧ raw = s.hData.toNat) →
    let t := raw - s.calOffset.toInt
    let m : Int := mult.toNat
    let r := if s.params.convForm = .exact then rdiv (100 * m * t - 1748160 * m) 6400
      else rdiv (m * t) 64 - rdiv (27315 * m) 100
    (-(2 ^ 31) ≤ r ∧ r ≤ 2 ^ 31 - 1 →
      exec (.celsius src mult) s = .next (finish .none { s with result := BitVec.ofInt 32 r })) ∧
    (¬(-(2 ^ 31) ≤ r ∧ r ≤ 2 ^ 31 - 1) → exec (.celsius src mult) s = .next (finish .range s))

/-- 42_converter.md R221: `FAHRENHEIT` computes `rdiv(900*m*(raw - off) - 14709440*m, 32000)` under `EXACT`, and the two
separately rounded terms of R215 under `TWO_TERM`. -/
def Obligations.FahrenheitWritesTheRoundedTemperature : Prop :=
  ∀ (s : State) (l : Locals) (src : BitVec 2) (mult : BitVec 16) (raw : Int), AtStep s 1 l none → s.initState = .ready →
    mult ≠ 0#16 → mult.toNat ≤ s.params.multMax.toNat →
    (src = 0#2 ∧ raw = s.curArg.toInt ∨ src = 1#2 ∧ raw = s.tData.toNat ∨ src = 2#2 ∧ raw = s.hData.toNat) →
    let t := raw - s.calOffset.toInt
    let m : Int := mult.toNat
    let r := if s.params.convForm = .exact then rdiv (900 * m * t - 14709440 * m) 32000
      else rdiv (9 * m * t) 320 - rdiv (45967 * m) 100
    (-(2 ^ 31) ≤ r ∧ r ≤ 2 ^ 31 - 1 →
      exec (.fahrenheit src mult) s = .next (finish .none { s with result := BitVec.ofInt 32 r })) ∧
    (¬(-(2 ^ 31) ≤ r ∧ r ≤ 2 ^ 31 - 1) → exec (.fahrenheit src mult) s = .next (finish .range s))

/-- 42_converter.md R222: `HUMIDITY` computes `rdiv(m*raw, 512)`, the offset not applied, under both conversion forms. -/
def Obligations.HumidityWritesTheRoundedHumidity : Prop :=
  ∀ (s : State) (l : Locals) (src : BitVec 2) (mult : BitVec 16) (raw : Int), AtStep s 1 l none → s.initState = .ready →
    mult ≠ 0#16 → mult.toNat ≤ s.params.multMax.toNat →
    (src = 0#2 ∧ raw = s.curArg.toInt ∨ src = 1#2 ∧ raw = s.tData.toNat ∨ src = 2#2 ∧ raw = s.hData.toNat) →
    let r := rdiv (mult.toNat * raw) 512
    (-(2 ^ 31) ≤ r ∧ r ≤ 2 ^ 31 - 1 →
      exec (.humidity src mult) s = .next (finish .none { s with result := BitVec.ofInt 32 r })) ∧
    (¬(-(2 ^ 31) ≤ r ∧ r ≤ 2 ^ 31 - 1) → exec (.humidity src mult) s = .next (finish .range s))

/-- 42_converter.md R224 (3): under `EXACT` every conversion is within one half of the multiplier times the affine value,
under `TWO_TERM` within one. -/
def Obligations.ConversionsAreWithinTheirErrorBounds : Prop :=
  ∀ (u : ScaleUnit) (raw off : Int) (m : Nat),
    |(convert .exact u raw m off : ℚ) - m * affineValue u raw off| ≤ 1 / 2 ∧
    |(convert .twoTerm u raw m off : ℚ) - m * affineValue u raw off| ≤ 1

/-- 42_converter.md R224 (1) and (2): at the native multipliers the conversion is the identity, under both forms. -/
def Obligations.NativeScaleConversionsAreExact : Prop :=
  ∀ (f : ConvForm) (raw off : Int),
    convert f .kelvin raw 64 off = raw - off ∧ convert f .humidity raw 512 off = raw

/-- 42_converter.md R214: every numerator fits a signed 64-bit accumulator with room to spare. -/
def Obligations.NumeratorsFitSixtyFourBits : Prop :=
  ∀ (u : ScaleUnit) (raw off : Word) (m : Nat), m ≤ 65535 →
    |raw.toInt - off.toInt| ≤ 2 ^ 32 ∧
    |numerator u raw.toInt m off.toInt| ≤ 900 * 65535 * 2 ^ 32 + 14709440 * 65535 ∧
    |numerator u raw.toInt m off.toInt| < 2 ^ 58

/-- 42_converter.md R218: for raw values below `2^17`, offsets of magnitude below `2^17` and multipliers up to 10000 no
conversion leaves the signed 32-bit range; the magnitude stays below `8*10^7`, under both forms. -/
def Obligations.SensorRangeConversionsFit : Prop :=
  ∀ (f : ConvForm) (u : ScaleUnit) (raw off : Int) (m : Nat), 0 ≤ raw → raw < 2 ^ 17 → |off| < 2 ^ 17 → m ≤ 10000 →
    |convert f u raw m off| < 8 * 10 ^ 7 ∧ fitsInt32 (convert f u raw m off) = true

/-! ## The host register space -/

/-- 20_memory.md R61: the address map. -/
def Obligations.HostRegistersStandAtTheirOffsets : Prop :=
  regOffset .cmd = 0x00#6 ∧ regOffset .ctrlStat = 0x04#6 ∧ regOffset .arg0 = 0x08#6 ∧ regOffset .result = 0x0C#6 ∧
  regOffset .vStatus = 0x10#6 ∧ regOffset .tData = 0x14#6 ∧ regOffset .tStatus = 0x18#6 ∧ regOffset .hData = 0x1C#6 ∧
  regOffset .hStatus = 0x20#6 ∧ regOffset .calOffset = 0x24#6 ∧ regOffset .partId = 0x28#6 ∧
  regOffset .uidLo = 0x2C#6 ∧ regOffset .uidHi = 0x30#6 ∧
  ∀ (off : BitVec 6) (r : HostReg), regAt off = some r ↔ off = regOffset r

/-- 20_memory.md R62, 40_protocol.md R130, as steps of the block: what each host access does. Where the word of a read stands
is the model's choice (log 9). -/
def Obligations.HostAccessesFollowTheirRules : Prop :=
  ∀ (s : State) (rest : List Move), s.faulted = none →
    (∀ r, s.script = .host (.read (regOffset r) 32) :: rest →
      step s = .next { s with script := rest, readData := some (readReg s r) }) ∧
    readReg s .cmd = 0#32 ∧ readReg s .ctrlStat = ctrlStat s ∧ readReg s .arg0 = s.arg0 ∧ readReg s .result = s.result ∧
    readReg s .vStatus = (statusCode s.vStatus).setWidth 32 ∧ readReg s .tData = s.tData.setWidth 32 ∧
    readReg s .tStatus = (statusCode s.tStatus).setWidth 32 ∧ readReg s .hData = s.hData.setWidth 32 ∧
    readReg s .hStatus = (statusCode s.hStatus).setWidth 32 ∧ readReg s .calOffset = s.calOffset ∧
    readReg s .partId = s.partId.setWidth 32 ∧ readReg s .uidLo = s.uidLo ∧ readReg s .uidHi = s.uidHi ∧
    (∀ v, s.script = .host (.write (regOffset .arg0) 32 v) :: rest → step s = .next { s with script := rest, arg0 := v }) ∧
    (∀ w, s.script = .host (.write (regOffset .cmd) 32 w) :: rest → s.busy = false →
      step s =
        .next { s with
          script := rest
          curCmd := w
          curArg := s.arg0
          busy := true
          phase := .exec (w.extractLsb' 0 4) 1 Locals.start }) ∧
    (∀ w, s.script = .host (.write (regOffset .cmd) 32 w) :: rest → s.busy = true →
      step s = .next { s with script := rest, faulted := some .cmdWhileBusy }) ∧
    (∀ r v, r ≠ .cmd → r ≠ .arg0 → s.script = .host (.write (regOffset r) 32 v) :: rest →
      step s = .next { s with script := rest }) ∧
    (∀ off width, (off.toNat % 4 ≠ 0 ∨ 0x34 ≤ off.toNat ∨ width ≠ 32) → s.script = .host (.read off width) :: rest →
      step s = .next { s with script := rest, faulted := some .hostAccess }) ∧
    (∀ off width v, (off.toNat % 4 ≠ 0 ∨ 0x34 ≤ off.toNat ∨ width ≠ 32) → s.script = .host (.write off width v) :: rest →
      step s = .next { s with script := rest, faulted := some .hostAccess })

/-- 10_state.md R36, R40: the fields of `CTRL_STAT`; every other bit reads 0. -/
def Obligations.ControlStatusHoldsItsFields : Prop :=
  ∀ (s : State),
    (ctrlStat s).extractLsb' 0 1 = BitVec.ofBool s.busy ∧
    (ctrlStat s).extractLsb' 1 2 = initStateCode s.initState ∧
    (ctrlStat s).extractLsb' 3 1 = BitVec.ofBool s.convPending ∧
    (ctrlStat s).extractLsb' 4 1 = BitVec.ofBool (s.convPending && s.params.tConvMs.toNat ≤ s.waitAcc.toNat) ∧
    (ctrlStat s).extractLsb' 5 3 = 0#3 ∧
    (ctrlStat s).extractLsb' 8 4 = s.lastOpc ∧
    (ctrlStat s).extractLsb' 12 4 = cmdErrCode s.cmdErr ∧
    (ctrlStat s).extractLsb' 16 16 = 0#16

/-! ## Frames and whole-machine rules -/

/-- No command's step writes `ARG0` or what was latched at acceptance, and none touches what is not the block's (10_state.md
R25, R43). -/
def Obligations.CommandsLeaveOperandsAndSurroundingsAlone : Prop :=
  ∀ (i : Instr) (s t : State), exec i s = .next t →
    t.arg0 = s.arg0 ∧ t.curCmd = s.curCmd ∧ t.curArg = s.curArg ∧ t.params = s.params ∧ t.script = s.script ∧
    t.draws = s.draws ∧ t.readData = s.readData

/-- 10_state.md R21, column "written by", R38, R39, R44: which commands write which register. -/
def Obligations.RegistersAreWrittenByTheirCommandsOnly : Prop :=
  ∀ (i : Instr) (s t : State), exec i s = .next t →
    ((∀ src m, i ≠ .kelvin src m) → (∀ src m, i ≠ .celsius src m) → (∀ src m, i ≠ .fahrenheit src m) →
      (∀ src m, i ≠ .humidity src m) → i ≠ .validate → t.result = s.result) ∧
    (i ≠ .validate → t.vStatus = s.vStatus) ∧
    (i ≠ .read → i ≠ .measure →
      t.tData = s.tData ∧ t.tStatus = s.tStatus ∧ t.hData = s.hData ∧ t.hStatus = s.hStatus) ∧
    ((∀ d, i ≠ .init d) → t.calOffset = s.calOffset ∧ t.initState = s.initState) ∧
    ((∀ d, i ≠ .init d) → i ≠ .readid → t.partId = s.partId ∧ t.uidLo = s.uidLo ∧ t.uidHi = s.uidHi) ∧
    ((∀ d, i ≠ .init d) → i ≠ .reset → i ≠ .start → i ≠ .read → i ≠ .measure → t.convPending = s.convPending) ∧
    ((∀ d, i ≠ .init d) → i ≠ .reset → i ≠ .start → i ≠ .read → i ≠ .measure → (∀ ms, i ≠ .wait ms) →
      t.waitAcc = s.waitAcc)

/-- 20_memory.md R68, R287: while a command runs, before and after a step, every register reads as it did, but `ARG0`
when the step is the host's write to it. -/
def Obligations.RunningCommandsShowNoResults : Prop :=
  ∀ (s t : State), step s = .next t → s.busy = true → t.busy = true →
    (∀ r, r ≠ .arg0 → readReg t r = readReg s r) ∧
    (t.arg0 = s.arg0 ∨ ∃ v rest, s.script = .host (.write (regOffset .arg0) 32 v) :: rest ∧ t.arg0 = v)

/-- 10_state.md R32: the calibration offset is written only by an `INIT` that finishes with `NONE`, which leaves the block
`READY`, or by block reset. -/
def Obligations.OnlySuccessfulInitWritesTheOffset : Prop :=
  ∀ (s t : State), step s = .next t → t.calOffset ≠ s.calOffset →
    (∃ rest, s.script = .blockReset :: rest) ∨
    (∃ d, decode s.curCmd = .ok (.init d) ∧ t.initState = .ready ∧ t.cmdErr = .none ∧ t.busy = false)

/-- 60_exceptions.md R255: a `FAILED` block stays `FAILED` until an `INIT` finishes with `NONE`, or block reset. -/
def Obligations.InitFailureIsSticky : Prop :=
  ∀ (s t : State), step s = .next t → s.initState = .failed →
    t.initState = .failed ∨ (∃ rest, s.script = .blockReset :: rest) ∨
    (∃ d, decode s.curCmd = .ok (.init d) ∧ t.initState = .ready ∧ t.cmdErr = .none ∧ t.busy = false)

/-- 20_memory.md R71: a running command does not see `ARG0`; its step with another `ARG0` is the same step. -/
def Obligations.RunningCommandIgnoresArg0 : Prop :=
  ∀ (i : Instr) (s : State) (v : Word),
    exec i { s with arg0 := v } =
      match exec i s with
      | .next t => .next { t with arg0 := v }
      | .fault f => .fault f
      | .refused r => .refused r

/-- 42_converter.md R223: a conversion reads no status register: with other statuses its step is the same step. -/
def Obligations.ConversionsIgnoreReadingStatuses : Prop :=
  ∀ (i : Instr) (s : State) (tS hS vS : Status),
    (∃ src m, i = .kelvin src m ∨ i = .celsius src m ∨ i = .fahrenheit src m ∨ i = .humidity src m) →
    exec i { s with tStatus := tS, hStatus := hS, vStatus := vS } =
      match exec i s with
      | .next t => .next { t with tStatus := tS, hStatus := hS, vStatus := vS }
      | .fault f => .fault f
      | .refused r => .refused r

/-! ## Faults -/

/-- 60_exceptions.md R259, 10_state.md R46: a faulted block takes no step, and raising a fault writes nothing else. That
the step after the one that raised it answers the fault is the model's form of R259 (log 5). -/
def Obligations.FaultedBlockTakesNoStep : Prop :=
  (∀ (s : State) (f : Fault), s.faulted = some f → step s = .fault f) ∧
  (∀ (s : State) (f : Fault), raiseFault f s = { s with faulted := some f })

/-- 60_exceptions.md R258: a step raises a model fault only in the situation listed for it; it is recorded in `faulted`
(log 5). -/
def Obligations.ModelFaultsAriseOnlyAsListed : Prop :=
  ∀ (s t : State) (f : Fault), step s = .next t → t.faulted = some f →
    (f = .cmdWhileBusy ∧ s.busy = true ∧ ∃ w rest, s.script = .host (.write (regOffset .cmd) 32 w) :: rest) ∨
    (f = .retrigger ∧ (decode s.curCmd = .ok .start ∨ decode s.curCmd = .ok .measure) ∧ s.initState = .ready ∧
      s.convPending = true) ∨
    (f = .earlyRead ∧ decode s.curCmd = .ok .read ∧ s.initState = .ready ∧ s.convPending = true ∧
      s.waitAcc.toNat < s.params.tConvMs.toNat) ∨
    (f = .hostAccess ∧ ∃ off width rest, (off.toNat % 4 ≠ 0 ∨ 0x34 ≤ off.toNat ∨ width ≠ 32) ∧
      (s.script = .host (.read off width) :: rest ∨ ∃ v, s.script = .host (.write off width v) :: rest))

/-! ## Reset, invariant, progress -/

/-- 70_reset_and_hazards.md R280, 10_state.md R25 to R46: the state at the start of a run. -/
def Obligations.ResetLeavesEveryRegisterAtItsValue : Prop :=
  let s := State.reset
  s.arg0 = 0#32 ∧ s.result = 0#32 ∧ s.tData = 0#17 ∧ s.hData = 0#17 ∧ s.calOffset = 0#32 ∧ s.partId = 0#16 ∧
  s.uidLo = 0#32 ∧ s.uidHi = 0#32 ∧ s.vStatus = .none ∧ s.tStatus = .none ∧ s.hStatus = .none ∧
  s.busy = false ∧ s.initState = .uninit ∧ s.convPending = false ∧ s.lastOpc = 0#4 ∧ s.cmdErr = .none ∧
  convElapsed s = false ∧ ctrlStat s = 0#32 ∧ s.curCmd = 0#32 ∧ s.curArg = 0#32 ∧ s.waitAcc = 0#32 ∧
  s.outstanding = none ∧ s.phase = .idle ∧ s.faulted = none

/-- 70_reset_and_hazards.md R280: block reset from any state, a running command abandoned; the model's own fields stay, its
choice (log 18). An answer that comes with nothing outstanding is discarded: R280 says so of one that comes after reset, and
of any other it is the model's choice (log 8). -/
def Obligations.BlockResetSetsEveryField : Prop :=
  (∀ (s : State) (rest : List Move), s.faulted = none → s.script = .blockReset :: rest →
    step s =
      .next
        { arg0 := 0#32, result := 0#32, vStatus := .none, tData := 0#17, tStatus := .none, hData := 0#17,
          hStatus := .none, calOffset := 0#32, partId := 0#16, uidLo := 0#32, uidHi := 0#32, busy := false,
          initState := .uninit, convPending := false, lastOpc := 0#4, cmdErr := .none, phase := .idle, curCmd := 0#32,
          curArg := 0#32, waitAcc := 0#32, outstanding := none, faulted := none, params := s.params, script := rest,
          draws := s.draws, readData := s.readData }) ∧
  (∀ (s : State) (rest : List Move) (ok : Bool) (bytes : List Byte), s.faulted = none → s.outstanding = none →
    (s.script = .bus ok bytes :: rest ∨ s.script = .delayDone :: rest) → step s = .next { s with script := rest })

/-- The invariant of Safety.lean holds at reset. -/
def Obligations.ResetMeetsTheInvariant : Prop := BlockInv State.reset

/-- The invariant is kept by every step, from every state that meets it. -/
def Obligations.EveryStepKeepsTheInvariant : Prop :=
  ∀ s t : State, BlockInv s → step s = .next t → BlockInv t

/-- No step from a state that meets the invariant is refused: in every run each agent's move has a meaning (log 10). -/
def Obligations.InvariantStatesAreNeverRefused : Prop :=
  ∀ (s : State) (r : Refusal), BlockInv s → step s ≠ .refused r

/-- 70_reset_and_hazards.md R293, R292: once the agents' script has run out, a running command finishes or faults within
twice as many steps as it has requests, and no step on the way is refused. That every agent asked answers at once when the
script has run out is the model's choice (log 2), and that an answer comes at all is R293's fairness. -/
def Obligations.AcceptedCommandsFinish : Prop :=
  ∀ s : State, BlockInv s → s.faulted = none → s.script = [] →
    ∃ n t, n ≤ 2 * s.params.triggerWrites.length + 9 ∧ Sys2Proof.core.run n s = .next t ∧
      (t.phase = .idle ∨ t.faulted ≠ none)

/-! ## The answering agents -/

/-- 10_state.md R45, 20_memory.md R63, R66: an agent's answer to the outstanding request is recorded beside it, whatever
the success flag and the bytes, and nothing else changes. A move that is no answer to the request (another kind, another
number of bytes, a request already answered) changes nothing, which is the model's choice (log 8). -/
def Obligations.AnswersAreRecorded : Prop :=
  ∀ (s : State) (rest : List Move), s.faulted = none →
    (∀ a v ok bytes, s.outstanding = some { request := .busWrite a v, answer := none } →
      s.script = .bus ok bytes :: rest →
      step s = .next { s with
        script := rest
        outstanding := some { request := .busWrite a v, answer := some (.ack ok) } }) ∧
    (∀ a n ok bytes, s.outstanding = some { request := .busRead a n, answer := none } →
      s.script = .bus ok bytes :: rest → bytes.length = n →
      step s = .next { s with
        script := rest
        outstanding := some { request := .busRead a n, answer := some (.data ok bytes) } }) ∧
    (∀ ms, s.outstanding = some { request := .delay ms, answer := none } → s.script = .delayDone :: rest →
      step s = .next { s with
        script := rest
        outstanding := some { request := .delay ms, answer := some .done } }) ∧
    (∀ a n ok bytes, s.outstanding = some { request := .busRead a n, answer := none } →
      s.script = .bus ok bytes :: rest → bytes.length ≠ n → step s = .next { s with script := rest }) ∧
    (∀ ms ok bytes, s.outstanding = some { request := .delay ms, answer := none } → s.script = .bus ok bytes :: rest →
      step s = .next { s with script := rest }) ∧
    (∀ r, (∀ ms, r ≠ .delay ms) → s.outstanding = some { request := r, answer := none } → s.script = .delayDone :: rest →
      step s = .next { s with script := rest }) ∧
    (∀ r a ok bytes, s.outstanding = some { request := r, answer := some a } →
      (s.script = .bus ok bytes :: rest ∨ s.script = .delayDone :: rest) → step s = .next { s with script := rest })

/-- 70_reset_and_hazards.md R293, 20_memory.md R63, R66: with the script run out, the next step gives the outstanding request
an answer of its kind and changes nothing else of the block. Which answer is open; that it comes at the next step is the
model's choice (log 2). -/
def Obligations.UnscriptedRequestsAreAnsweredFreely : Prop :=
  ∀ (s : State) (r : Request), s.faulted = none → s.script = [] →
    s.outstanding = some { request := r, answer := none } →
    ∃ a, answerFits r a ∧
      step s = .next { s with outstanding := some { request := r, answer := some a }, draws := s.draws + 1 }
end

