-- ==== Sys2Proof/Laws/State.lean ====
section
/-! SUPPORT. For each update of the state, the value of each field after it. Every lemma is the definition of the update
read off one field, so that no later proof unfolds a record update. -/

namespace Sys2Proof.Machine

/-! `finish` (R252). -/

@[simp] theorem finish_arg0 (e : CmdErr) (s : State) : (finish e s).arg0 = s.arg0 := rfl
@[simp] theorem finish_result (e : CmdErr) (s : State) : (finish e s).result = s.result := rfl
@[simp] theorem finish_vStatus (e : CmdErr) (s : State) : (finish e s).vStatus = s.vStatus := rfl
@[simp] theorem finish_tData (e : CmdErr) (s : State) : (finish e s).tData = s.tData := rfl
@[simp] theorem finish_tStatus (e : CmdErr) (s : State) : (finish e s).tStatus = s.tStatus := rfl
@[simp] theorem finish_hData (e : CmdErr) (s : State) : (finish e s).hData = s.hData := rfl
@[simp] theorem finish_hStatus (e : CmdErr) (s : State) : (finish e s).hStatus = s.hStatus := rfl
@[simp] theorem finish_calOffset (e : CmdErr) (s : State) : (finish e s).calOffset = s.calOffset := rfl
@[simp] theorem finish_partId (e : CmdErr) (s : State) : (finish e s).partId = s.partId := rfl
@[simp] theorem finish_uidLo (e : CmdErr) (s : State) : (finish e s).uidLo = s.uidLo := rfl
@[simp] theorem finish_uidHi (e : CmdErr) (s : State) : (finish e s).uidHi = s.uidHi := rfl
@[simp] theorem finish_busy (e : CmdErr) (s : State) : (finish e s).busy = false := rfl
@[simp] theorem finish_initState (e : CmdErr) (s : State) : (finish e s).initState = s.initState := rfl
@[simp] theorem finish_convPending (e : CmdErr) (s : State) : (finish e s).convPending = s.convPending := rfl
@[simp] theorem finish_lastOpc (e : CmdErr) (s : State) : (finish e s).lastOpc = opcodeField s.curCmd := rfl
@[simp] theorem finish_cmdErr (e : CmdErr) (s : State) : (finish e s).cmdErr = e := rfl
@[simp] theorem finish_phase (e : CmdErr) (s : State) : (finish e s).phase = .idle := rfl
@[simp] theorem finish_curCmd (e : CmdErr) (s : State) : (finish e s).curCmd = s.curCmd := rfl
@[simp] theorem finish_curArg (e : CmdErr) (s : State) : (finish e s).curArg = s.curArg := rfl
@[simp] theorem finish_waitAcc (e : CmdErr) (s : State) : (finish e s).waitAcc = s.waitAcc := rfl
@[simp] theorem finish_outstanding (e : CmdErr) (s : State) : (finish e s).outstanding = none := rfl
@[simp] theorem finish_faulted (e : CmdErr) (s : State) : (finish e s).faulted = s.faulted := rfl
@[simp] theorem finish_params (e : CmdErr) (s : State) : (finish e s).params = s.params := rfl
@[simp] theorem finish_script (e : CmdErr) (s : State) : (finish e s).script = s.script := rfl
@[simp] theorem finish_draws (e : CmdErr) (s : State) : (finish e s).draws = s.draws := rfl
@[simp] theorem finish_readData (e : CmdErr) (s : State) : (finish e s).readData = s.readData := rfl

/-! `raiseFault` (R259). -/

@[simp] theorem raiseFault_arg0 (f : Fault) (s : State) : (raiseFault f s).arg0 = s.arg0 := rfl
@[simp] theorem raiseFault_result (f : Fault) (s : State) : (raiseFault f s).result = s.result := rfl
@[simp] theorem raiseFault_vStatus (f : Fault) (s : State) : (raiseFault f s).vStatus = s.vStatus := rfl
@[simp] theorem raiseFault_tData (f : Fault) (s : State) : (raiseFault f s).tData = s.tData := rfl
@[simp] theorem raiseFault_tStatus (f : Fault) (s : State) : (raiseFault f s).tStatus = s.tStatus := rfl
@[simp] theorem raiseFault_hData (f : Fault) (s : State) : (raiseFault f s).hData = s.hData := rfl
@[simp] theorem raiseFault_hStatus (f : Fault) (s : State) : (raiseFault f s).hStatus = s.hStatus := rfl
@[simp] theorem raiseFault_calOffset (f : Fault) (s : State) : (raiseFault f s).calOffset = s.calOffset := rfl
@[simp] theorem raiseFault_partId (f : Fault) (s : State) : (raiseFault f s).partId = s.partId := rfl
@[simp] theorem raiseFault_uidLo (f : Fault) (s : State) : (raiseFault f s).uidLo = s.uidLo := rfl
@[simp] theorem raiseFault_uidHi (f : Fault) (s : State) : (raiseFault f s).uidHi = s.uidHi := rfl
@[simp] theorem raiseFault_busy (f : Fault) (s : State) : (raiseFault f s).busy = s.busy := rfl
@[simp] theorem raiseFault_initState (f : Fault) (s : State) : (raiseFault f s).initState = s.initState := rfl
@[simp] theorem raiseFault_convPending (f : Fault) (s : State) : (raiseFault f s).convPending = s.convPending := rfl
@[simp] theorem raiseFault_lastOpc (f : Fault) (s : State) : (raiseFault f s).lastOpc = s.lastOpc := rfl
@[simp] theorem raiseFault_cmdErr (f : Fault) (s : State) : (raiseFault f s).cmdErr = s.cmdErr := rfl
@[simp] theorem raiseFault_phase (f : Fault) (s : State) : (raiseFault f s).phase = s.phase := rfl
@[simp] theorem raiseFault_curCmd (f : Fault) (s : State) : (raiseFault f s).curCmd = s.curCmd := rfl
@[simp] theorem raiseFault_curArg (f : Fault) (s : State) : (raiseFault f s).curArg = s.curArg := rfl
@[simp] theorem raiseFault_waitAcc (f : Fault) (s : State) : (raiseFault f s).waitAcc = s.waitAcc := rfl
@[simp] theorem raiseFault_outstanding (f : Fault) (s : State) : (raiseFault f s).outstanding = s.outstanding := rfl
@[simp] theorem raiseFault_faulted (f : Fault) (s : State) : (raiseFault f s).faulted = some f := rfl
@[simp] theorem raiseFault_params (f : Fault) (s : State) : (raiseFault f s).params = s.params := rfl
@[simp] theorem raiseFault_script (f : Fault) (s : State) : (raiseFault f s).script = s.script := rfl
@[simp] theorem raiseFault_draws (f : Fault) (s : State) : (raiseFault f s).draws = s.draws := rfl
@[simp] theorem raiseFault_readData (f : Fault) (s : State) : (raiseFault f s).readData = s.readData := rfl

/-! `clearConversion` (R39, R44). -/

@[simp] theorem clearConversion_arg0 (s : State) : (clearConversion s).arg0 = s.arg0 := rfl
@[simp] theorem clearConversion_result (s : State) : (clearConversion s).result = s.result := rfl
@[simp] theorem clearConversion_vStatus (s : State) : (clearConversion s).vStatus = s.vStatus := rfl
@[simp] theorem clearConversion_tData (s : State) : (clearConversion s).tData = s.tData := rfl
@[simp] theorem clearConversion_tStatus (s : State) : (clearConversion s).tStatus = s.tStatus := rfl
@[simp] theorem clearConversion_hData (s : State) : (clearConversion s).hData = s.hData := rfl
@[simp] theorem clearConversion_hStatus (s : State) : (clearConversion s).hStatus = s.hStatus := rfl
@[simp] theorem clearConversion_calOffset (s : State) : (clearConversion s).calOffset = s.calOffset := rfl
@[simp] theorem clearConversion_partId (s : State) : (clearConversion s).partId = s.partId := rfl
@[simp] theorem clearConversion_uidLo (s : State) : (clearConversion s).uidLo = s.uidLo := rfl
@[simp] theorem clearConversion_uidHi (s : State) : (clearConversion s).uidHi = s.uidHi := rfl
@[simp] theorem clearConversion_busy (s : State) : (clearConversion s).busy = s.busy := rfl
@[simp] theorem clearConversion_initState (s : State) : (clearConversion s).initState = s.initState := rfl
@[simp] theorem clearConversion_convPending (s : State) : (clearConversion s).convPending = false := rfl
@[simp] theorem clearConversion_lastOpc (s : State) : (clearConversion s).lastOpc = s.lastOpc := rfl
@[simp] theorem clearConversion_cmdErr (s : State) : (clearConversion s).cmdErr = s.cmdErr := rfl
@[simp] theorem clearConversion_phase (s : State) : (clearConversion s).phase = s.phase := rfl
@[simp] theorem clearConversion_curCmd (s : State) : (clearConversion s).curCmd = s.curCmd := rfl
@[simp] theorem clearConversion_curArg (s : State) : (clearConversion s).curArg = s.curArg := rfl
@[simp] theorem clearConversion_waitAcc (s : State) : (clearConversion s).waitAcc = 0#32 := rfl
@[simp] theorem clearConversion_outstanding (s : State) : (clearConversion s).outstanding = s.outstanding := rfl
@[simp] theorem clearConversion_faulted (s : State) : (clearConversion s).faulted = s.faulted := rfl
@[simp] theorem clearConversion_params (s : State) : (clearConversion s).params = s.params := rfl
@[simp] theorem clearConversion_script (s : State) : (clearConversion s).script = s.script := rfl
@[simp] theorem clearConversion_draws (s : State) : (clearConversion s).draws = s.draws := rfl
@[simp] theorem clearConversion_readData (s : State) : (clearConversion s).readData = s.readData := rfl

/-! `beginConversion` (R39, R44). -/

@[simp] theorem beginConversion_arg0 (s : State) : (beginConversion s).arg0 = s.arg0 := rfl
@[simp] theorem beginConversion_result (s : State) : (beginConversion s).result = s.result := rfl
@[simp] theorem beginConversion_vStatus (s : State) : (beginConversion s).vStatus = s.vStatus := rfl
@[simp] theorem beginConversion_tData (s : State) : (beginConversion s).tData = s.tData := rfl
@[simp] theorem beginConversion_tStatus (s : State) : (beginConversion s).tStatus = s.tStatus := rfl
@[simp] theorem beginConversion_hData (s : State) : (beginConversion s).hData = s.hData := rfl
@[simp] theorem beginConversion_hStatus (s : State) : (beginConversion s).hStatus = s.hStatus := rfl
@[simp] theorem beginConversion_calOffset (s : State) : (beginConversion s).calOffset = s.calOffset := rfl
@[simp] theorem beginConversion_partId (s : State) : (beginConversion s).partId = s.partId := rfl
@[simp] theorem beginConversion_uidLo (s : State) : (beginConversion s).uidLo = s.uidLo := rfl
@[simp] theorem beginConversion_uidHi (s : State) : (beginConversion s).uidHi = s.uidHi := rfl
@[simp] theorem beginConversion_busy (s : State) : (beginConversion s).busy = s.busy := rfl
@[simp] theorem beginConversion_initState (s : State) : (beginConversion s).initState = s.initState := rfl
@[simp] theorem beginConversion_convPending (s : State) : (beginConversion s).convPending = true := rfl
@[simp] theorem beginConversion_lastOpc (s : State) : (beginConversion s).lastOpc = s.lastOpc := rfl
@[simp] theorem beginConversion_cmdErr (s : State) : (beginConversion s).cmdErr = s.cmdErr := rfl
@[simp] theorem beginConversion_phase (s : State) : (beginConversion s).phase = s.phase := rfl
@[simp] theorem beginConversion_curCmd (s : State) : (beginConversion s).curCmd = s.curCmd := rfl
@[simp] theorem beginConversion_curArg (s : State) : (beginConversion s).curArg = s.curArg := rfl
@[simp] theorem beginConversion_waitAcc (s : State) : (beginConversion s).waitAcc = 0#32 := rfl
@[simp] theorem beginConversion_outstanding (s : State) : (beginConversion s).outstanding = s.outstanding := rfl
@[simp] theorem beginConversion_faulted (s : State) : (beginConversion s).faulted = s.faulted := rfl
@[simp] theorem beginConversion_params (s : State) : (beginConversion s).params = s.params := rfl
@[simp] theorem beginConversion_script (s : State) : (beginConversion s).script = s.script := rfl
@[simp] theorem beginConversion_draws (s : State) : (beginConversion s).draws = s.draws := rfl
@[simp] theorem beginConversion_readData (s : State) : (beginConversion s).readData = s.readData := rfl

/-! `issue` (R45). -/

@[simp] theorem issue_arg0 (r : Request) (k : Nat) (l : Locals) (s : State) : (issue r k l s).arg0 = s.arg0 := rfl
@[simp] theorem issue_result (r : Request) (k : Nat) (l : Locals) (s : State) : (issue r k l s).result = s.result := rfl
@[simp] theorem issue_vStatus (r : Request) (k : Nat) (l : Locals) (s : State) : (issue r k l s).vStatus = s.vStatus := rfl
@[simp] theorem issue_tData (r : Request) (k : Nat) (l : Locals) (s : State) : (issue r k l s).tData = s.tData := rfl
@[simp] theorem issue_tStatus (r : Request) (k : Nat) (l : Locals) (s : State) : (issue r k l s).tStatus = s.tStatus := rfl
@[simp] theorem issue_hData (r : Request) (k : Nat) (l : Locals) (s : State) : (issue r k l s).hData = s.hData := rfl
@[simp] theorem issue_hStatus (r : Request) (k : Nat) (l : Locals) (s : State) : (issue r k l s).hStatus = s.hStatus := rfl
@[simp] theorem issue_calOffset (r : Request) (k : Nat) (l : Locals) (s : State) : (issue r k l s).calOffset = s.calOffset := rfl
@[simp] theorem issue_partId (r : Request) (k : Nat) (l : Locals) (s : State) : (issue r k l s).partId = s.partId := rfl
@[simp] theorem issue_uidLo (r : Request) (k : Nat) (l : Locals) (s : State) : (issue r k l s).uidLo = s.uidLo := rfl
@[simp] theorem issue_uidHi (r : Request) (k : Nat) (l : Locals) (s : State) : (issue r k l s).uidHi = s.uidHi := rfl
@[simp] theorem issue_busy (r : Request) (k : Nat) (l : Locals) (s : State) : (issue r k l s).busy = s.busy := rfl
@[simp] theorem issue_initState (r : Request) (k : Nat) (l : Locals) (s : State) : (issue r k l s).initState = s.initState := rfl
@[simp] theorem issue_convPending (r : Request) (k : Nat) (l : Locals) (s : State) : (issue r k l s).convPending = s.convPending := rfl
@[simp] theorem issue_lastOpc (r : Request) (k : Nat) (l : Locals) (s : State) : (issue r k l s).lastOpc = s.lastOpc := rfl
@[simp] theorem issue_cmdErr (r : Request) (k : Nat) (l : Locals) (s : State) : (issue r k l s).cmdErr = s.cmdErr := rfl
@[simp] theorem issue_phase (r : Request) (k : Nat) (l : Locals) (s : State) : (issue r k l s).phase = .exec (opcodeField s.curCmd) k l := rfl
@[simp] theorem issue_curCmd (r : Request) (k : Nat) (l : Locals) (s : State) : (issue r k l s).curCmd = s.curCmd := rfl
@[simp] theorem issue_curArg (r : Request) (k : Nat) (l : Locals) (s : State) : (issue r k l s).curArg = s.curArg := rfl
@[simp] theorem issue_waitAcc (r : Request) (k : Nat) (l : Locals) (s : State) : (issue r k l s).waitAcc = s.waitAcc := rfl
@[simp] theorem issue_outstanding (r : Request) (k : Nat) (l : Locals) (s : State) : (issue r k l s).outstanding = some { request := r, answer := none } := rfl
@[simp] theorem issue_faulted (r : Request) (k : Nat) (l : Locals) (s : State) : (issue r k l s).faulted = s.faulted := rfl
@[simp] theorem issue_params (r : Request) (k : Nat) (l : Locals) (s : State) : (issue r k l s).params = s.params := rfl
@[simp] theorem issue_script (r : Request) (k : Nat) (l : Locals) (s : State) : (issue r k l s).script = s.script := rfl
@[simp] theorem issue_draws (r : Request) (k : Nat) (l : Locals) (s : State) : (issue r k l s).draws = s.draws := rfl
@[simp] theorem issue_readData (r : Request) (k : Nat) (l : Locals) (s : State) : (issue r k l s).readData = s.readData := rfl

/-! `acceptCommand` (R130). -/

@[simp] theorem acceptCommand_arg0 (w : Word) (s : State) : (acceptCommand w s).arg0 = s.arg0 := rfl
@[simp] theorem acceptCommand_result (w : Word) (s : State) : (acceptCommand w s).result = s.result := rfl
@[simp] theorem acceptCommand_vStatus (w : Word) (s : State) : (acceptCommand w s).vStatus = s.vStatus := rfl
@[simp] theorem acceptCommand_tData (w : Word) (s : State) : (acceptCommand w s).tData = s.tData := rfl
@[simp] theorem acceptCommand_tStatus (w : Word) (s : State) : (acceptCommand w s).tStatus = s.tStatus := rfl
@[simp] theorem acceptCommand_hData (w : Word) (s : State) : (acceptCommand w s).hData = s.hData := rfl
@[simp] theorem acceptCommand_hStatus (w : Word) (s : State) : (acceptCommand w s).hStatus = s.hStatus := rfl
@[simp] theorem acceptCommand_calOffset (w : Word) (s : State) : (acceptCommand w s).calOffset = s.calOffset := rfl
@[simp] theorem acceptCommand_partId (w : Word) (s : State) : (acceptCommand w s).partId = s.partId := rfl
@[simp] theorem acceptCommand_uidLo (w : Word) (s : State) : (acceptCommand w s).uidLo = s.uidLo := rfl
@[simp] theorem acceptCommand_uidHi (w : Word) (s : State) : (acceptCommand w s).uidHi = s.uidHi := rfl
@[simp] theorem acceptCommand_busy (w : Word) (s : State) : (acceptCommand w s).busy = true := rfl
@[simp] theorem acceptCommand_initState (w : Word) (s : State) : (acceptCommand w s).initState = s.initState := rfl
@[simp] theorem acceptCommand_convPending (w : Word) (s : State) : (acceptCommand w s).convPending = s.convPending := rfl
@[simp] theorem acceptCommand_lastOpc (w : Word) (s : State) : (acceptCommand w s).lastOpc = s.lastOpc := rfl
@[simp] theorem acceptCommand_cmdErr (w : Word) (s : State) : (acceptCommand w s).cmdErr = s.cmdErr := rfl
@[simp] theorem acceptCommand_phase (w : Word) (s : State) : (acceptCommand w s).phase = .exec (opcodeField w) 1 Locals.start := rfl
@[simp] theorem acceptCommand_curCmd (w : Word) (s : State) : (acceptCommand w s).curCmd = w := rfl
@[simp] theorem acceptCommand_curArg (w : Word) (s : State) : (acceptCommand w s).curArg = s.arg0 := rfl
@[simp] theorem acceptCommand_waitAcc (w : Word) (s : State) : (acceptCommand w s).waitAcc = s.waitAcc := rfl
@[simp] theorem acceptCommand_outstanding (w : Word) (s : State) : (acceptCommand w s).outstanding = s.outstanding := rfl
@[simp] theorem acceptCommand_faulted (w : Word) (s : State) : (acceptCommand w s).faulted = s.faulted := rfl
@[simp] theorem acceptCommand_params (w : Word) (s : State) : (acceptCommand w s).params = s.params := rfl
@[simp] theorem acceptCommand_script (w : Word) (s : State) : (acceptCommand w s).script = s.script := rfl
@[simp] theorem acceptCommand_draws (w : Word) (s : State) : (acceptCommand w s).draws = s.draws := rfl
@[simp] theorem acceptCommand_readData (w : Word) (s : State) : (acceptCommand w s).readData = s.readData := rfl

/-! `commitIdentity` (R142). -/

@[simp] theorem commitIdentity_arg0 (pid : BitVec 16) (uid : BitVec 64) (s : State) : (commitIdentity pid uid s).arg0 = s.arg0 := rfl
@[simp] theorem commitIdentity_result (pid : BitVec 16) (uid : BitVec 64) (s : State) : (commitIdentity pid uid s).result = s.result := rfl
@[simp] theorem commitIdentity_vStatus (pid : BitVec 16) (uid : BitVec 64) (s : State) : (commitIdentity pid uid s).vStatus = s.vStatus := rfl
@[simp] theorem commitIdentity_tData (pid : BitVec 16) (uid : BitVec 64) (s : State) : (commitIdentity pid uid s).tData = s.tData := rfl
@[simp] theorem commitIdentity_tStatus (pid : BitVec 16) (uid : BitVec 64) (s : State) : (commitIdentity pid uid s).tStatus = s.tStatus := rfl
@[simp] theorem commitIdentity_hData (pid : BitVec 16) (uid : BitVec 64) (s : State) : (commitIdentity pid uid s).hData = s.hData := rfl
@[simp] theorem commitIdentity_hStatus (pid : BitVec 16) (uid : BitVec 64) (s : State) : (commitIdentity pid uid s).hStatus = s.hStatus := rfl
@[simp] theorem commitIdentity_calOffset (pid : BitVec 16) (uid : BitVec 64) (s : State) : (commitIdentity pid uid s).calOffset = s.calOffset := rfl
@[simp] theorem commitIdentity_partId (pid : BitVec 16) (uid : BitVec 64) (s : State) : (commitIdentity pid uid s).partId = pid := rfl
@[simp] theorem commitIdentity_uidLo (pid : BitVec 16) (uid : BitVec 64) (s : State) : (commitIdentity pid uid s).uidLo = uid.extractLsb' 0 32 := rfl
@[simp] theorem commitIdentity_uidHi (pid : BitVec 16) (uid : BitVec 64) (s : State) : (commitIdentity pid uid s).uidHi = uid.extractLsb' 32 32 := rfl
@[simp] theorem commitIdentity_busy (pid : BitVec 16) (uid : BitVec 64) (s : State) : (commitIdentity pid uid s).busy = s.busy := rfl
@[simp] theorem commitIdentity_initState (pid : BitVec 16) (uid : BitVec 64) (s : State) : (commitIdentity pid uid s).initState = s.initState := rfl
@[simp] theorem commitIdentity_convPending (pid : BitVec 16) (uid : BitVec 64) (s : State) : (commitIdentity pid uid s).convPending = s.convPending := rfl
@[simp] theorem commitIdentity_lastOpc (pid : BitVec 16) (uid : BitVec 64) (s : State) : (commitIdentity pid uid s).lastOpc = s.lastOpc := rfl
@[simp] theorem commitIdentity_cmdErr (pid : BitVec 16) (uid : BitVec 64) (s : State) : (commitIdentity pid uid s).cmdErr = s.cmdErr := rfl
@[simp] theorem commitIdentity_phase (pid : BitVec 16) (uid : BitVec 64) (s : State) : (commitIdentity pid uid s).phase = s.phase := rfl
@[simp] theorem commitIdentity_curCmd (pid : BitVec 16) (uid : BitVec 64) (s : State) : (commitIdentity pid uid s).curCmd = s.curCmd := rfl
@[simp] theorem commitIdentity_curArg (pid : BitVec 16) (uid : BitVec 64) (s : State) : (commitIdentity pid uid s).curArg = s.curArg := rfl
@[simp] theorem commitIdentity_waitAcc (pid : BitVec 16) (uid : BitVec 64) (s : State) : (commitIdentity pid uid s).waitAcc = s.waitAcc := rfl
@[simp] theorem commitIdentity_outstanding (pid : BitVec 16) (uid : BitVec 64) (s : State) : (commitIdentity pid uid s).outstanding = s.outstanding := rfl
@[simp] theorem commitIdentity_faulted (pid : BitVec 16) (uid : BitVec 64) (s : State) : (commitIdentity pid uid s).faulted = s.faulted := rfl
@[simp] theorem commitIdentity_params (pid : BitVec 16) (uid : BitVec 64) (s : State) : (commitIdentity pid uid s).params = s.params := rfl
@[simp] theorem commitIdentity_script (pid : BitVec 16) (uid : BitVec 64) (s : State) : (commitIdentity pid uid s).script = s.script := rfl
@[simp] theorem commitIdentity_draws (pid : BitVec 16) (uid : BitVec 64) (s : State) : (commitIdentity pid uid s).draws = s.draws := rfl
@[simp] theorem commitIdentity_readData (pid : BitVec 16) (uid : BitVec 64) (s : State) : (commitIdentity pid uid s).readData = s.readData := rfl

/-! `failInit` (R132). -/

@[simp] theorem failInit_arg0 (s : State) : (failInit s).arg0 = s.arg0 := rfl
@[simp] theorem failInit_result (s : State) : (failInit s).result = s.result := rfl
@[simp] theorem failInit_vStatus (s : State) : (failInit s).vStatus = s.vStatus := rfl
@[simp] theorem failInit_tData (s : State) : (failInit s).tData = s.tData := rfl
@[simp] theorem failInit_tStatus (s : State) : (failInit s).tStatus = s.tStatus := rfl
@[simp] theorem failInit_hData (s : State) : (failInit s).hData = s.hData := rfl
@[simp] theorem failInit_hStatus (s : State) : (failInit s).hStatus = s.hStatus := rfl
@[simp] theorem failInit_calOffset (s : State) : (failInit s).calOffset = s.calOffset := rfl
@[simp] theorem failInit_partId (s : State) : (failInit s).partId = s.partId := rfl
@[simp] theorem failInit_uidLo (s : State) : (failInit s).uidLo = s.uidLo := rfl
@[simp] theorem failInit_uidHi (s : State) : (failInit s).uidHi = s.uidHi := rfl
@[simp] theorem failInit_busy (s : State) : (failInit s).busy = s.busy := rfl
@[simp] theorem failInit_initState (s : State) : (failInit s).initState = .failed := rfl
@[simp] theorem failInit_convPending (s : State) : (failInit s).convPending = false := rfl
@[simp] theorem failInit_lastOpc (s : State) : (failInit s).lastOpc = s.lastOpc := rfl
@[simp] theorem failInit_cmdErr (s : State) : (failInit s).cmdErr = s.cmdErr := rfl
@[simp] theorem failInit_phase (s : State) : (failInit s).phase = s.phase := rfl
@[simp] theorem failInit_curCmd (s : State) : (failInit s).curCmd = s.curCmd := rfl
@[simp] theorem failInit_curArg (s : State) : (failInit s).curArg = s.curArg := rfl
@[simp] theorem failInit_waitAcc (s : State) : (failInit s).waitAcc = 0#32 := rfl
@[simp] theorem failInit_outstanding (s : State) : (failInit s).outstanding = s.outstanding := rfl
@[simp] theorem failInit_faulted (s : State) : (failInit s).faulted = s.faulted := rfl
@[simp] theorem failInit_params (s : State) : (failInit s).params = s.params := rfl
@[simp] theorem failInit_script (s : State) : (failInit s).script = s.script := rfl
@[simp] theorem failInit_draws (s : State) : (failInit s).draws = s.draws := rfl
@[simp] theorem failInit_readData (s : State) : (failInit s).readData = s.readData := rfl

/-! `commitValidated` (R186). -/

@[simp] theorem commitValidated_arg0 (v : Word × Status) (s : State) : (commitValidated v s).arg0 = s.arg0 := rfl
@[simp] theorem commitValidated_result (v : Word × Status) (s : State) : (commitValidated v s).result = v.1 := rfl
@[simp] theorem commitValidated_vStatus (v : Word × Status) (s : State) : (commitValidated v s).vStatus = v.2 := rfl
@[simp] theorem commitValidated_tData (v : Word × Status) (s : State) : (commitValidated v s).tData = s.tData := rfl
@[simp] theorem commitValidated_tStatus (v : Word × Status) (s : State) : (commitValidated v s).tStatus = s.tStatus := rfl
@[simp] theorem commitValidated_hData (v : Word × Status) (s : State) : (commitValidated v s).hData = s.hData := rfl
@[simp] theorem commitValidated_hStatus (v : Word × Status) (s : State) : (commitValidated v s).hStatus = s.hStatus := rfl
@[simp] theorem commitValidated_calOffset (v : Word × Status) (s : State) : (commitValidated v s).calOffset = s.calOffset := rfl
@[simp] theorem commitValidated_partId (v : Word × Status) (s : State) : (commitValidated v s).partId = s.partId := rfl
@[simp] theorem commitValidated_uidLo (v : Word × Status) (s : State) : (commitValidated v s).uidLo = s.uidLo := rfl
@[simp] theorem commitValidated_uidHi (v : Word × Status) (s : State) : (commitValidated v s).uidHi = s.uidHi := rfl
@[simp] theorem commitValidated_busy (v : Word × Status) (s : State) : (commitValidated v s).busy = s.busy := rfl
@[simp] theorem commitValidated_initState (v : Word × Status) (s : State) : (commitValidated v s).initState = s.initState := rfl
@[simp] theorem commitValidated_convPending (v : Word × Status) (s : State) : (commitValidated v s).convPending = s.convPending := rfl
@[simp] theorem commitValidated_lastOpc (v : Word × Status) (s : State) : (commitValidated v s).lastOpc = s.lastOpc := rfl
@[simp] theorem commitValidated_cmdErr (v : Word × Status) (s : State) : (commitValidated v s).cmdErr = s.cmdErr := rfl
@[simp] theorem commitValidated_phase (v : Word × Status) (s : State) : (commitValidated v s).phase = s.phase := rfl
@[simp] theorem commitValidated_curCmd (v : Word × Status) (s : State) : (commitValidated v s).curCmd = s.curCmd := rfl
@[simp] theorem commitValidated_curArg (v : Word × Status) (s : State) : (commitValidated v s).curArg = s.curArg := rfl
@[simp] theorem commitValidated_waitAcc (v : Word × Status) (s : State) : (commitValidated v s).waitAcc = s.waitAcc := rfl
@[simp] theorem commitValidated_outstanding (v : Word × Status) (s : State) : (commitValidated v s).outstanding = s.outstanding := rfl
@[simp] theorem commitValidated_faulted (v : Word × Status) (s : State) : (commitValidated v s).faulted = s.faulted := rfl
@[simp] theorem commitValidated_params (v : Word × Status) (s : State) : (commitValidated v s).params = s.params := rfl
@[simp] theorem commitValidated_script (v : Word × Status) (s : State) : (commitValidated v s).script = s.script := rfl
@[simp] theorem commitValidated_draws (v : Word × Status) (s : State) : (commitValidated v s).draws = s.draws := rfl
@[simp] theorem commitValidated_readData (v : Word × Status) (s : State) : (commitValidated v s).readData = s.readData := rfl

/-! `commitConverted` (R226). -/

@[simp] theorem commitConverted_arg0 (r : Int) (s : State) : (commitConverted r s).arg0 = s.arg0 := rfl
@[simp] theorem commitConverted_result (r : Int) (s : State) : (commitConverted r s).result = BitVec.ofInt 32 r := rfl
@[simp] theorem commitConverted_vStatus (r : Int) (s : State) : (commitConverted r s).vStatus = s.vStatus := rfl
@[simp] theorem commitConverted_tData (r : Int) (s : State) : (commitConverted r s).tData = s.tData := rfl
@[simp] theorem commitConverted_tStatus (r : Int) (s : State) : (commitConverted r s).tStatus = s.tStatus := rfl
@[simp] theorem commitConverted_hData (r : Int) (s : State) : (commitConverted r s).hData = s.hData := rfl
@[simp] theorem commitConverted_hStatus (r : Int) (s : State) : (commitConverted r s).hStatus = s.hStatus := rfl
@[simp] theorem commitConverted_calOffset (r : Int) (s : State) : (commitConverted r s).calOffset = s.calOffset := rfl
@[simp] theorem commitConverted_partId (r : Int) (s : State) : (commitConverted r s).partId = s.partId := rfl
@[simp] theorem commitConverted_uidLo (r : Int) (s : State) : (commitConverted r s).uidLo = s.uidLo := rfl
@[simp] theorem commitConverted_uidHi (r : Int) (s : State) : (commitConverted r s).uidHi = s.uidHi := rfl
@[simp] theorem commitConverted_busy (r : Int) (s : State) : (commitConverted r s).busy = s.busy := rfl
@[simp] theorem commitConverted_initState (r : Int) (s : State) : (commitConverted r s).initState = s.initState := rfl
@[simp] theorem commitConverted_convPending (r : Int) (s : State) : (commitConverted r s).convPending = s.convPending := rfl
@[simp] theorem commitConverted_lastOpc (r : Int) (s : State) : (commitConverted r s).lastOpc = s.lastOpc := rfl
@[simp] theorem commitConverted_cmdErr (r : Int) (s : State) : (commitConverted r s).cmdErr = s.cmdErr := rfl
@[simp] theorem commitConverted_phase (r : Int) (s : State) : (commitConverted r s).phase = s.phase := rfl
@[simp] theorem commitConverted_curCmd (r : Int) (s : State) : (commitConverted r s).curCmd = s.curCmd := rfl
@[simp] theorem commitConverted_curArg (r : Int) (s : State) : (commitConverted r s).curArg = s.curArg := rfl
@[simp] theorem commitConverted_waitAcc (r : Int) (s : State) : (commitConverted r s).waitAcc = s.waitAcc := rfl
@[simp] theorem commitConverted_outstanding (r : Int) (s : State) : (commitConverted r s).outstanding = s.outstanding := rfl
@[simp] theorem commitConverted_faulted (r : Int) (s : State) : (commitConverted r s).faulted = s.faulted := rfl
@[simp] theorem commitConverted_params (r : Int) (s : State) : (commitConverted r s).params = s.params := rfl
@[simp] theorem commitConverted_script (r : Int) (s : State) : (commitConverted r s).script = s.script := rfl
@[simp] theorem commitConverted_draws (r : Int) (s : State) : (commitConverted r s).draws = s.draws := rfl
@[simp] theorem commitConverted_readData (r : Int) (s : State) : (commitConverted r s).readData = s.readData := rfl

/-! `commitReadings` (R138). -/

@[simp] theorem commitReadings_arg0 (t h : Option Word × Status) (s : State) : (commitReadings t h s).arg0 = s.arg0 := rfl
@[simp] theorem commitReadings_result (t h : Option Word × Status) (s : State) : (commitReadings t h s).result = s.result := rfl
@[simp] theorem commitReadings_vStatus (t h : Option Word × Status) (s : State) : (commitReadings t h s).vStatus = s.vStatus := rfl
@[simp] theorem commitReadings_tData (t h : Option Word × Status) (s : State) : (commitReadings t h s).tData = readingData s.tData t.1 := rfl
@[simp] theorem commitReadings_tStatus (t h : Option Word × Status) (s : State) : (commitReadings t h s).tStatus = t.2 := rfl
@[simp] theorem commitReadings_hData (t h : Option Word × Status) (s : State) : (commitReadings t h s).hData = readingData s.hData h.1 := rfl
@[simp] theorem commitReadings_hStatus (t h : Option Word × Status) (s : State) : (commitReadings t h s).hStatus = h.2 := rfl
@[simp] theorem commitReadings_calOffset (t h : Option Word × Status) (s : State) : (commitReadings t h s).calOffset = s.calOffset := rfl
@[simp] theorem commitReadings_partId (t h : Option Word × Status) (s : State) : (commitReadings t h s).partId = s.partId := rfl
@[simp] theorem commitReadings_uidLo (t h : Option Word × Status) (s : State) : (commitReadings t h s).uidLo = s.uidLo := rfl
@[simp] theorem commitReadings_uidHi (t h : Option Word × Status) (s : State) : (commitReadings t h s).uidHi = s.uidHi := rfl
@[simp] theorem commitReadings_busy (t h : Option Word × Status) (s : State) : (commitReadings t h s).busy = s.busy := rfl
@[simp] theorem commitReadings_initState (t h : Option Word × Status) (s : State) : (commitReadings t h s).initState = s.initState := rfl
@[simp] theorem commitReadings_convPending (t h : Option Word × Status) (s : State) : (commitReadings t h s).convPending = false := rfl
@[simp] theorem commitReadings_lastOpc (t h : Option Word × Status) (s : State) : (commitReadings t h s).lastOpc = s.lastOpc := rfl
@[simp] theorem commitReadings_cmdErr (t h : Option Word × Status) (s : State) : (commitReadings t h s).cmdErr = s.cmdErr := rfl
@[simp] theorem commitReadings_phase (t h : Option Word × Status) (s : State) : (commitReadings t h s).phase = s.phase := rfl
@[simp] theorem commitReadings_curCmd (t h : Option Word × Status) (s : State) : (commitReadings t h s).curCmd = s.curCmd := rfl
@[simp] theorem commitReadings_curArg (t h : Option Word × Status) (s : State) : (commitReadings t h s).curArg = s.curArg := rfl
@[simp] theorem commitReadings_waitAcc (t h : Option Word × Status) (s : State) : (commitReadings t h s).waitAcc = 0#32 := rfl
@[simp] theorem commitReadings_outstanding (t h : Option Word × Status) (s : State) : (commitReadings t h s).outstanding = s.outstanding := rfl
@[simp] theorem commitReadings_faulted (t h : Option Word × Status) (s : State) : (commitReadings t h s).faulted = s.faulted := rfl
@[simp] theorem commitReadings_params (t h : Option Word × Status) (s : State) : (commitReadings t h s).params = s.params := rfl
@[simp] theorem commitReadings_script (t h : Option Word × Status) (s : State) : (commitReadings t h s).script = s.script := rfl
@[simp] theorem commitReadings_draws (t h : Option Word × Status) (s : State) : (commitReadings t h s).draws = s.draws := rfl
@[simp] theorem commitReadings_readData (t h : Option Word × Status) (s : State) : (commitReadings t h s).readData = s.readData := rfl

/-! `blockReset` (R280). -/

@[simp] theorem blockReset_arg0 (s : State) : (blockReset s).arg0 = 0#32 := rfl
@[simp] theorem blockReset_result (s : State) : (blockReset s).result = 0#32 := rfl
@[simp] theorem blockReset_vStatus (s : State) : (blockReset s).vStatus = .none := rfl
@[simp] theorem blockReset_tData (s : State) : (blockReset s).tData = 0#17 := rfl
@[simp] theorem blockReset_tStatus (s : State) : (blockReset s).tStatus = .none := rfl
@[simp] theorem blockReset_hData (s : State) : (blockReset s).hData = 0#17 := rfl
@[simp] theorem blockReset_hStatus (s : State) : (blockReset s).hStatus = .none := rfl
@[simp] theorem blockReset_calOffset (s : State) : (blockReset s).calOffset = 0#32 := rfl
@[simp] theorem blockReset_partId (s : State) : (blockReset s).partId = 0#16 := rfl
@[simp] theorem blockReset_uidLo (s : State) : (blockReset s).uidLo = 0#32 := rfl
@[simp] theorem blockReset_uidHi (s : State) : (blockReset s).uidHi = 0#32 := rfl
@[simp] theorem blockReset_busy (s : State) : (blockReset s).busy = false := rfl
@[simp] theorem blockReset_initState (s : State) : (blockReset s).initState = .uninit := rfl
@[simp] theorem blockReset_convPending (s : State) : (blockReset s).convPending = false := rfl
@[simp] theorem blockReset_lastOpc (s : State) : (blockReset s).lastOpc = 0#4 := rfl
@[simp] theorem blockReset_cmdErr (s : State) : (blockReset s).cmdErr = .none := rfl
@[simp] theorem blockReset_phase (s : State) : (blockReset s).phase = .idle := rfl
@[simp] theorem blockReset_curCmd (s : State) : (blockReset s).curCmd = 0#32 := rfl
@[simp] theorem blockReset_curArg (s : State) : (blockReset s).curArg = 0#32 := rfl
@[simp] theorem blockReset_waitAcc (s : State) : (blockReset s).waitAcc = 0#32 := rfl
@[simp] theorem blockReset_outstanding (s : State) : (blockReset s).outstanding = none := rfl
@[simp] theorem blockReset_faulted (s : State) : (blockReset s).faulted = s.faulted := rfl
@[simp] theorem blockReset_params (s : State) : (blockReset s).params = s.params := rfl
@[simp] theorem blockReset_script (s : State) : (blockReset s).script = s.script := rfl
@[simp] theorem blockReset_draws (s : State) : (blockReset s).draws = s.draws := rfl
@[simp] theorem blockReset_readData (s : State) : (blockReset s).readData = s.readData := rfl

/-! `answerWith` writes `outstanding` only (R45). -/

@[simp] theorem answerWith_arg0 (f : Request → Option Answer) (s : State) : (answerWith f s).arg0 = s.arg0 := by
  unfold answerWith; split <;> rfl
@[simp] theorem answerWith_result (f : Request → Option Answer) (s : State) : (answerWith f s).result = s.result := by
  unfold answerWith; split <;> rfl
@[simp] theorem answerWith_vStatus (f : Request → Option Answer) (s : State) : (answerWith f s).vStatus = s.vStatus := by
  unfold answerWith; split <;> rfl
@[simp] theorem answerWith_tData (f : Request → Option Answer) (s : State) : (answerWith f s).tData = s.tData := by
  unfold answerWith; split <;> rfl
@[simp] theorem answerWith_tStatus (f : Request → Option Answer) (s : State) : (answerWith f s).tStatus = s.tStatus := by
  unfold answerWith; split <;> rfl
@[simp] theorem answerWith_hData (f : Request → Option Answer) (s : State) : (answerWith f s).hData = s.hData := by
  unfold answerWith; split <;> rfl
@[simp] theorem answerWith_hStatus (f : Request → Option Answer) (s : State) : (answerWith f s).hStatus = s.hStatus := by
  unfold answerWith; split <;> rfl
@[simp] theorem answerWith_calOffset (f : Request → Option Answer) (s : State) : (answerWith f s).calOffset = s.calOffset := by
  unfold answerWith; split <;> rfl
@[simp] theorem answerWith_partId (f : Request → Option Answer) (s : State) : (answerWith f s).partId = s.partId := by
  unfold answerWith; split <;> rfl
@[simp] theorem answerWith_uidLo (f : Request → Option Answer) (s : State) : (answerWith f s).uidLo = s.uidLo := by
  unfold answerWith; split <;> rfl
@[simp] theorem answerWith_uidHi (f : Request → Option Answer) (s : State) : (answerWith f s).uidHi = s.uidHi := by
  unfold answerWith; split <;> rfl
@[simp] theorem answerWith_busy (f : Request → Option Answer) (s : State) : (answerWith f s).busy = s.busy := by
  unfold answerWith; split <;> rfl
@[simp] theorem answerWith_initState (f : Request → Option Answer) (s : State) : (answerWith f s).initState = s.initState := by
  unfold answerWith; split <;> rfl
@[simp] theorem answerWith_convPending (f : Request → Option Answer) (s : State) : (answerWith f s).convPending = s.convPending := by
  unfold answerWith; split <;> rfl
@[simp] theorem answerWith_lastOpc (f : Request → Option Answer) (s : State) : (answerWith f s).lastOpc = s.lastOpc := by
  unfold answerWith; split <;> rfl
@[simp] theorem answerWith_cmdErr (f : Request → Option Answer) (s : State) : (answerWith f s).cmdErr = s.cmdErr := by
  unfold answerWith; split <;> rfl
@[simp] theorem answerWith_phase (f : Request → Option Answer) (s : State) : (answerWith f s).phase = s.phase := by
  unfold answerWith; split <;> rfl
@[simp] theorem answerWith_curCmd (f : Request → Option Answer) (s : State) : (answerWith f s).curCmd = s.curCmd := by
  unfold answerWith; split <;> rfl
@[simp] theorem answerWith_curArg (f : Request → Option Answer) (s : State) : (answerWith f s).curArg = s.curArg := by
  unfold answerWith; split <;> rfl
@[simp] theorem answerWith_waitAcc (f : Request → Option Answer) (s : State) : (answerWith f s).waitAcc = s.waitAcc := by
  unfold answerWith; split <;> rfl
@[simp] theorem answerWith_faulted (f : Request → Option Answer) (s : State) : (answerWith f s).faulted = s.faulted := by
  unfold answerWith; split <;> rfl
@[simp] theorem answerWith_params (f : Request → Option Answer) (s : State) : (answerWith f s).params = s.params := by
  unfold answerWith; split <;> rfl
@[simp] theorem answerWith_script (f : Request → Option Answer) (s : State) : (answerWith f s).script = s.script := by
  unfold answerWith; split <;> rfl
@[simp] theorem answerWith_draws (f : Request → Option Answer) (s : State) : (answerWith f s).draws = s.draws := by
  unfold answerWith; split <;> rfl
@[simp] theorem answerWith_readData (f : Request → Option Answer) (s : State) : (answerWith f s).readData = s.readData := by
  unfold answerWith; split <;> rfl

/-! `drawAnswer` writes `outstanding` and `draws` only (R293). -/

@[simp] theorem drawAnswer_arg0 (s : State) : (drawAnswer s).arg0 = s.arg0 :=
  answerWith_arg0 _ s
@[simp] theorem drawAnswer_result (s : State) : (drawAnswer s).result = s.result :=
  answerWith_result _ s
@[simp] theorem drawAnswer_vStatus (s : State) : (drawAnswer s).vStatus = s.vStatus :=
  answerWith_vStatus _ s
@[simp] theorem drawAnswer_tData (s : State) : (drawAnswer s).tData = s.tData :=
  answerWith_tData _ s
@[simp] theorem drawAnswer_tStatus (s : State) : (drawAnswer s).tStatus = s.tStatus :=
  answerWith_tStatus _ s
@[simp] theorem drawAnswer_hData (s : State) : (drawAnswer s).hData = s.hData :=
  answerWith_hData _ s
@[simp] theorem drawAnswer_hStatus (s : State) : (drawAnswer s).hStatus = s.hStatus :=
  answerWith_hStatus _ s
@[simp] theorem drawAnswer_calOffset (s : State) : (drawAnswer s).calOffset = s.calOffset :=
  answerWith_calOffset _ s
@[simp] theorem drawAnswer_partId (s : State) : (drawAnswer s).partId = s.partId :=
  answerWith_partId _ s
@[simp] theorem drawAnswer_uidLo (s : State) : (drawAnswer s).uidLo = s.uidLo :=
  answerWith_uidLo _ s
@[simp] theorem drawAnswer_uidHi (s : State) : (drawAnswer s).uidHi = s.uidHi :=
  answerWith_uidHi _ s
@[simp] theorem drawAnswer_busy (s : State) : (drawAnswer s).busy = s.busy :=
  answerWith_busy _ s
@[simp] theorem drawAnswer_initState (s : State) : (drawAnswer s).initState = s.initState :=
  answerWith_initState _ s
@[simp] theorem drawAnswer_convPending (s : State) : (drawAnswer s).convPending = s.convPending :=
  answerWith_convPending _ s
@[simp] theorem drawAnswer_lastOpc (s : State) : (drawAnswer s).lastOpc = s.lastOpc :=
  answerWith_lastOpc _ s
@[simp] theorem drawAnswer_cmdErr (s : State) : (drawAnswer s).cmdErr = s.cmdErr :=
  answerWith_cmdErr _ s
@[simp] theorem drawAnswer_phase (s : State) : (drawAnswer s).phase = s.phase :=
  answerWith_phase _ s
@[simp] theorem drawAnswer_curCmd (s : State) : (drawAnswer s).curCmd = s.curCmd :=
  answerWith_curCmd _ s
@[simp] theorem drawAnswer_curArg (s : State) : (drawAnswer s).curArg = s.curArg :=
  answerWith_curArg _ s
@[simp] theorem drawAnswer_waitAcc (s : State) : (drawAnswer s).waitAcc = s.waitAcc :=
  answerWith_waitAcc _ s
@[simp] theorem drawAnswer_faulted (s : State) : (drawAnswer s).faulted = s.faulted :=
  answerWith_faulted _ s
@[simp] theorem drawAnswer_params (s : State) : (drawAnswer s).params = s.params :=
  answerWith_params _ s
@[simp] theorem drawAnswer_script (s : State) : (drawAnswer s).script = s.script :=
  answerWith_script _ s
@[simp] theorem drawAnswer_readData (s : State) : (drawAnswer s).readData = s.readData :=
  answerWith_readData _ s
@[simp] theorem drawAnswer_draws (s : State) : (drawAnswer s).draws = s.draws + 1 := rfl
@[simp] theorem drawAnswer_outstanding (s : State) :
    (drawAnswer s).outstanding = (answerWith (freeAnswer s.draws) s).outstanding := rfl

/-! `commitWait` writes `waitAcc` only (R137). -/

@[simp] theorem commitWait_arg0 (ms : BitVec 24) (s : State) : (commitWait ms s).arg0 = s.arg0 := by
  unfold commitWait; split <;> rfl
@[simp] theorem commitWait_result (ms : BitVec 24) (s : State) : (commitWait ms s).result = s.result := by
  unfold commitWait; split <;> rfl
@[simp] theorem commitWait_vStatus (ms : BitVec 24) (s : State) : (commitWait ms s).vStatus = s.vStatus := by
  unfold commitWait; split <;> rfl
@[simp] theorem commitWait_tData (ms : BitVec 24) (s : State) : (commitWait ms s).tData = s.tData := by
  unfold commitWait; split <;> rfl
@[simp] theorem commitWait_tStatus (ms : BitVec 24) (s : State) : (commitWait ms s).tStatus = s.tStatus := by
  unfold commitWait; split <;> rfl
@[simp] theorem commitWait_hData (ms : BitVec 24) (s : State) : (commitWait ms s).hData = s.hData := by
  unfold commitWait; split <;> rfl
@[simp] theorem commitWait_hStatus (ms : BitVec 24) (s : State) : (commitWait ms s).hStatus = s.hStatus := by
  unfold commitWait; split <;> rfl
@[simp] theorem commitWait_calOffset (ms : BitVec 24) (s : State) : (commitWait ms s).calOffset = s.calOffset := by
  unfold commitWait; split <;> rfl
@[simp] theorem commitWait_partId (ms : BitVec 24) (s : State) : (commitWait ms s).partId = s.partId := by
  unfold commitWait; split <;> rfl
@[simp] theorem commitWait_uidLo (ms : BitVec 24) (s : State) : (commitWait ms s).uidLo = s.uidLo := by
  unfold commitWait; split <;> rfl
@[simp] theorem commitWait_uidHi (ms : BitVec 24) (s : State) : (commitWait ms s).uidHi = s.uidHi := by
  unfold commitWait; split <;> rfl
@[simp] theorem commitWait_busy (ms : BitVec 24) (s : State) : (commitWait ms s).busy = s.busy := by
  unfold commitWait; split <;> rfl
@[simp] theorem commitWait_initState (ms : BitVec 24) (s : State) : (commitWait ms s).initState = s.initState := by
  unfold commitWait; split <;> rfl
@[simp] theorem commitWait_convPending (ms : BitVec 24) (s : State) : (commitWait ms s).convPending = s.convPending := by
  unfold commitWait; split <;> rfl
@[simp] theorem commitWait_lastOpc (ms : BitVec 24) (s : State) : (commitWait ms s).lastOpc = s.lastOpc := by
  unfold commitWait; split <;> rfl
@[simp] theorem commitWait_cmdErr (ms : BitVec 24) (s : State) : (commitWait ms s).cmdErr = s.cmdErr := by
  unfold commitWait; split <;> rfl
@[simp] theorem commitWait_phase (ms : BitVec 24) (s : State) : (commitWait ms s).phase = s.phase := by
  unfold commitWait; split <;> rfl
@[simp] theorem commitWait_curCmd (ms : BitVec 24) (s : State) : (commitWait ms s).curCmd = s.curCmd := by
  unfold commitWait; split <;> rfl
@[simp] theorem commitWait_curArg (ms : BitVec 24) (s : State) : (commitWait ms s).curArg = s.curArg := by
  unfold commitWait; split <;> rfl
@[simp] theorem commitWait_outstanding (ms : BitVec 24) (s : State) : (commitWait ms s).outstanding = s.outstanding := by
  unfold commitWait; split <;> rfl
@[simp] theorem commitWait_faulted (ms : BitVec 24) (s : State) : (commitWait ms s).faulted = s.faulted := by
  unfold commitWait; split <;> rfl
@[simp] theorem commitWait_params (ms : BitVec 24) (s : State) : (commitWait ms s).params = s.params := by
  unfold commitWait; split <;> rfl
@[simp] theorem commitWait_script (ms : BitVec 24) (s : State) : (commitWait ms s).script = s.script := by
  unfold commitWait; split <;> rfl
@[simp] theorem commitWait_draws (ms : BitVec 24) (s : State) : (commitWait ms s).draws = s.draws := by
  unfold commitWait; split <;> rfl
@[simp] theorem commitWait_readData (ms : BitVec 24) (s : State) : (commitWait ms s).readData = s.readData := by
  unfold commitWait; split <;> rfl

end Sys2Proof.Machine
end

