-- ==== Sys2Proof/Laws/Ops.lean ====
section
/-! SUPPORT. For each shared operation, one lemma that says everything it can do, and the equations that run it. -/

namespace Sys2Proof.Machine

/-! ## The sequencer's position -/

theorem stepIndex_of_phase {s : State} {op : BitVec 4} {k : Nat} {l : Locals} (h : s.phase = .exec op k l) :
    stepIndex s = k := by
  simp [stepIndex, h]

theorem stepLocals_of_phase {s : State} {op : BitVec 4} {k : Nat} {l : Locals} (h : s.phase = .exec op k l) :
    stepLocals s = l := by
  simp [stepLocals, h]

theorem AtStep.stepIndex_eq {s : State} {k : Nat} {l : Locals} {o : Option Outstanding} (h : AtStep s k l o) :
    stepIndex s = k := by
  obtain ⟨_, hp⟩ := h.at_phase
  exact stepIndex_of_phase hp

theorem AtStep.stepLocals_eq {s : State} {k : Nat} {l : Locals} {o : Option Outstanding} (h : AtStep s k l o) :
    stepLocals s = l := by
  obtain ⟨_, hp⟩ := h.at_phase
  exact stepLocals_of_phase hp

/-! ## The prologue -/

/-- Everything the prologue can do. -/
theorem prologue_cases (i : Instr) (s : State) (body : Result State) :
    (s.initState ≠ .ready ∧ isInit i = false ∧ prologue i s body = .next (finish .notReady s)) ∨
      ((s.initState = .ready ∨ isInit i = true) ∧ badArg s.params i = true ∧
        prologue i s body = .next (finish .badArg s)) ∨
      ((s.initState = .ready ∨ isInit i = true) ∧ badArg s.params i = false ∧ prologue i s body = body) := by
  unfold prologue
  by_cases h1 : s.initState = .ready <;> cases h2 : isInit i <;> cases h3 : badArg s.params i <;> simp [h1]

/-- The prologue answers a next state whenever the body does. -/
theorem prologue_next {i : Instr} {s : State} {body : Result State} (h : ∃ t, body = .next t) :
    ∃ t, prologue i s body = .next t := by
  rcases prologue_cases i s body with ⟨_, _, e⟩ | ⟨_, _, e⟩ | ⟨_, _, e⟩ <;> rw [e]
  · exact ⟨_, rfl⟩
  · exact ⟨_, rfl⟩
  · exact h

theorem prologue_notReady {i : Instr} {s : State} (body : Result State) (h1 : s.initState ≠ .ready)
    (h2 : isInit i = false) : prologue i s body = .next (finish .notReady s) := by
  simp [prologue, h1, h2]

theorem prologue_pass {i : Instr} {s : State} (body : Result State) (h1 : s.initState = .ready)
    (h2 : badArg s.params i = false) : prologue i s body = body := by
  simp [prologue, h1, h2]

theorem prologue_badArg {i : Instr} {s : State} (body : Result State) (h1 : s.initState = .ready)
    (h2 : badArg s.params i = true) : prologue i s body = .next (finish .badArg s) := by
  simp [prologue, h1, h2]

theorem prologue_init (d : Bool) (s : State) (body : Result State) : prologue (.init d) s body = body := by
  simp [prologue, isInit, badArg]

/-! ## Consuming an answer -/

theorem onAck_eq {s : State} {r : Request} {ok : Bool} (f : Bool → Result State)
    (h : s.outstanding = some { request := r, answer := some (.ack ok) }) : onAck s f = f ok := by
  simp [onAck, h]

theorem onData_eq {s : State} {r : Request} {ok : Bool} {bytes : List Byte} (f : Bool → List Byte → Result State)
    (h : s.outstanding = some { request := r, answer := some (.data ok bytes) }) : onData s f = f ok bytes := by
  simp [onData, h]

theorem onDone_eq {s : State} {r : Request} (x : Result State)
    (h : s.outstanding = some { request := r, answer := some .done }) : onDone s x = x := by
  simp [onDone, h]

/-- Everything `onAck` can do. -/
theorem onAck_cases (s : State) (f : Bool → Result State) :
    (∃ r ok, s.outstanding = some { request := r, answer := some (.ack ok) } ∧ onAck s f = f ok) ∨
      onAck s f = .refused .sequencerIncoherent := by
  unfold onAck
  split
  · rename_i r ok h
    exact .inl ⟨r, ok, h, rfl⟩
  · exact .inr rfl

/-- Everything `onData` can do. -/
theorem onData_cases (s : State) (f : Bool → List Byte → Result State) :
    (∃ r ok bytes, s.outstanding = some { request := r, answer := some (.data ok bytes) } ∧ onData s f = f ok bytes) ∨
      onData s f = .refused .sequencerIncoherent := by
  unfold onData
  split
  · rename_i r ok bytes h
    exact .inl ⟨r, ok, bytes, h, rfl⟩
  · exact .inr rfl

/-- Everything `onDone` can do. -/
theorem onDone_cases (s : State) (x : Result State) :
    (∃ r, s.outstanding = some { request := r, answer := some .done } ∧ onDone s x = x) ∨
      onDone s x = .refused .sequencerIncoherent := by
  unfold onDone
  split
  · rename_i r h
    exact .inl ⟨r, h, rfl⟩
  · exact .inr rfl

/-! ## External answers -/

/-- Everything an external agent's answer can do. -/
theorem answerWith_cases (f : Request → Option Answer) (s : State) :
    (∃ r, s.outstanding = some { request := r, answer := none } ∧
        answerWith f s = { s with outstanding := some { request := r, answer := f r } }) ∨
      (waiting s = false ∧ answerWith f s = s) := by
  unfold answerWith waiting
  split
  · rename_i r h
    exact .inl ⟨r, h, rfl⟩
  · rename_i h
    exact .inr ⟨rfl, rfl⟩

theorem waiting_iff (s : State) : waiting s = true ↔ ∃ r, s.outstanding = some { request := r, answer := none } := by
  unfold waiting
  split
  · rename_i r h
    simp [h]
  · rename_i h
    simp only [Bool.false_eq_true, false_iff, not_exists]
    exact h

theorem busAnswer_fits {r : Request} {ok : Bool} {bytes : List Byte} {a : Answer} (h : busAnswer r ok bytes = some a) :
    answerFits r a := by
  cases r with
  | busWrite _ _ => simp only [busAnswer, Option.some.injEq] at h; subst h; trivial
  | busRead _ n =>
    simp only [busAnswer] at h
    split at h
    · simp only [Option.some.injEq] at h; subst h; assumption
    · cases h
  | delay _ => cases h

theorem delayAnswer_fits {r : Request} {a : Answer} (h : delayAnswer r = some a) : answerFits r a := by
  cases r with
  | busWrite _ _ => cases h
  | busRead _ _ => cases h
  | delay _ => simp only [delayAnswer, Option.some.injEq] at h; subst h; trivial

theorem freeAnswer_fits {n : Nat} {r : Request} {a : Answer} (h : freeAnswer n r = some a) : answerFits r a := by
  cases r with
  | busWrite _ _ => simp only [freeAnswer, Option.some.injEq] at h; subst h; trivial
  | busRead _ c => simp only [freeAnswer, Option.some.injEq] at h; subst h; simp [answerFits]
  | delay _ => simp only [freeAnswer, Option.some.injEq] at h; subst h; trivial

theorem freeAnswer_isSome (n : Nat) (r : Request) : ∃ a, freeAnswer n r = some a := by
  cases r <;> exact ⟨_, rfl⟩

/-! ## The host's accesses -/

/-- Everything a host write to a register can do. -/
theorem writeReg_cases (r : HostReg) (v : Word) (s : State) :
    (r = .cmd ∧ s.busy = true ∧ writeReg r v s = raiseFault .cmdWhileBusy s) ∨
      (r = .cmd ∧ s.busy = false ∧ writeReg r v s = acceptCommand v s) ∨
      (r = .arg0 ∧ writeReg r v s = { s with arg0 := v }) ∨
      (r ≠ .cmd ∧ r ≠ .arg0 ∧ writeReg r v s = s) := by
  cases hb : s.busy <;> cases r <;> simp [writeReg, offerCommand, hb]

/-- Everything a host access can do. -/
theorem hostAccess_cases (a : HostAccess) (s : State) :
    (∃ v, hostAccess a s = { s with readData := some v }) ∨ hostAccess a s = raiseFault .hostAccess s ∨
      (s.busy = true ∧ hostAccess a s = raiseFault .cmdWhileBusy s) ∨
      (∃ w, s.busy = false ∧ hostAccess a s = acceptCommand w s) ∨
      (∃ v, hostAccess a s = { s with arg0 := v }) ∨ hostAccess a s = s := by
  cases a with
  | read off width =>
    simp only [hostAccess]
    split
    · split
      · exact .inl ⟨_, rfl⟩
      · exact .inr (.inl rfl)
    · exact .inr (.inl rfl)
  | write off width v =>
    simp only [hostAccess]
    split
    · rename_i r _
      split
      · rcases writeReg_cases r v s with h | h | h | h
        · exact .inr (.inr (.inl ⟨h.2.1, h.2.2⟩))
        · exact .inr (.inr (.inr (.inl ⟨v, h.2.1, h.2.2⟩)))
        · exact .inr (.inr (.inr (.inr (.inl ⟨v, h.2⟩))))
        · exact .inr (.inr (.inr (.inr (.inr h.2.2))))
      · exact .inr (.inl rfl)
    · exact .inr (.inl rfl)

theorem hostAccess_read {off : BitVec 6} {r : HostReg} (s : State) (h : regAt off = some r) :
    hostAccess (.read off 32) s = { s with readData := some (readReg s r) } := by
  simp [hostAccess, h]

theorem hostAccess_write {off : BitVec 6} {r : HostReg} (v : Word) (s : State) (h : regAt off = some r) :
    hostAccess (.write off 32 v) s = writeReg r v s := by
  simp [hostAccess, h]

/-! ## Arguments -/

theorem conversionArgsLegal_iff (p : Params) (src : BitVec 2) (mult : BitVec 16) :
    conversionArgsLegal p src mult = true ↔ src.toNat ≠ 3 ∧ mult.toNat ≠ 0 ∧ mult.toNat ≤ p.multMax.toNat := by
  simp only [conversionArgsLegal, Bool.and_eq_true, bne_iff_ne, decide_eq_true_eq, and_assoc]

theorem conversion_refusal_iff (p : Params) (src : BitVec 2) (mult : BitVec 16) :
    (src.toNat == 3 || mult.toNat == 0 || decide (p.multMax.toNat < mult.toNat)) = !conversionArgsLegal p src mult := by
  rw [Bool.eq_iff_iff, Bool.not_eq_true', ← Bool.not_eq_true, conversionArgsLegal_iff]
  simp only [Bool.or_eq_true, beq_iff_eq, decide_eq_true_eq]
  omega

/-- The prologue's argument check refuses exactly the operands that R101 calls illegal. -/
theorem badArg_eq_not_argsLegal (p : Params) (i : Instr) : badArg p i = !i.argsLegal p := by
  cases i with
  | kelvin src mult => exact conversion_refusal_iff p src mult
  | celsius src mult => exact conversion_refusal_iff p src mult
  | fahrenheit src mult => exact conversion_refusal_iff p src mult
  | humidity src mult => exact conversion_refusal_iff p src mult
  | init _ | reset | setlp _ | readid | start | wait _ | read | measure | validate => rfl

theorem rawSource_isSome {src : BitVec 2} (s : State) (h : src.toNat ≠ 3) : ∃ raw, rawSource src s = some raw := by
  have hlt := src.isLt
  unfold rawSource
  split
  · exact ⟨_, rfl⟩
  · exact ⟨_, rfl⟩
  · exact ⟨_, rfl⟩
  · rename_i h0 h1 h2
    exact absurd (show src.toNat < 4 from hlt) (by
      have h0' : src.toNat ≠ 0 := h0
      have h1' : src.toNat ≠ 1 := h1
      have h2' : src.toNat ≠ 2 := h2
      omega)

/-! ## The trigger writes -/

theorem triggerWrites_length (p : Params) : p.triggerWrites.length = p.triggerList.length := List.length_map _

/-- Trigger write `j` goes to the address its entry names (20_memory.md R64, 40_protocol.md R140). -/
theorem triggerWrites_getElem? (p : Params) (j : Nat) :
    p.triggerWrites[j]? = p.triggerList[j]?.map fun w => (p.triggerAddr w.1, w.2) := List.getElem?_map ..

/-- A single write to the sensor-start register goes to `REG_SENS_START`, whatever that is (00_scope.md R6). -/
theorem triggerWrites_sensStart {p : Params} {v : Byte} (h : p.triggerList = [(.sensStart, v)]) :
    p.triggerWrites = [(p.regSensStart, v)] := by
  simp [Params.triggerWrites, Params.triggerAddr, h]

end Sys2Proof.Machine
end

