-- ==== Sys2Proof/Laws/Exec.lean ====
section
/-! SUPPORT. What one step of a command can do, said once for all commands: it finishes with one of the commit groups of
40_protocol.md, 41_validator.md and 42_converter.md, or it issues the request its next step consumes the answer of, or it
raises a model fault. -/

namespace Sys2Proof.Machine

/-- A conversion command (30_encoding.md R94). -/
def IsConversion (i : Instr) : Prop :=
  ∃ src mult, i = .kelvin src mult ∨ i = .celsius src mult ∨ i = .fahrenheit src mult ∨ i = .humidity src mult

/-- The commit groups: command `i`, finishing in state `s` with error code `e`, commits `u`. -/
inductive Commits (i : Instr) (s : State) : CmdErr → State → Prop where
  | nothing (e : CmdErr) (he : isInit i = true → e ≠ .none) : Commits i s e s
  | initWriteFailed (hi : isInit i = true) : Commits i s .bus { s with initState := .failed }
  | initReadFailed (hi : isInit i = true) : Commits i s .bus (failInit s)
  | initMismatched (hi : isInit i = true) (pid : BitVec 16) (uid : BitVec 64) :
      Commits i s .idMismatch (failInit (commitIdentity pid uid s))
  | initialized (hi : isInit i = true) (hk : stepIndex s = 5) (pid : BitVec 16) (uid : BitVec 64) :
      Commits i s .none
        (clearConversion { commitIdentity pid uid s with calOffset := (stepLocals s).offset, initState := .ready })
  | cleared (e : CmdErr) (hi : i = .reset ∨ i = .start) : Commits i s e (clearConversion s)
  | identified (hi : i = .readid) (pid : BitVec 16) (uid : BitVec 64) : Commits i s .none (commitIdentity pid uid s)
  | begun (hi : i = .start) : Commits i s .none (beginConversion s)
  | waited (ms : BitVec 24) (hi : i = .wait ms) : Commits i s .none (commitWait ms s)
  | readings (e : CmdErr) (hi : i = .read ∨ i = .measure) (okT : Bool) (mwT : Word) (okH : Bool) (mwH : Word) :
      Commits i s e (commitReadings (reading s.params okT mwT) (reading s.params okH mwH) s)
  | triggerFailed (hi : i = .measure) : Commits i s .bus { s with tStatus := .busError, hStatus := .busError }
  | validated (hi : i = .validate) : Commits i s .none (commitValidated (extract s.params s.curArg) s)
  | converted (hi : IsConversion i) (r : Int) : Commits i s .none (commitConverted r s)

/-- What one step of command `i` in state `s` can come to. -/
inductive Progress (i : Instr) (s : State) : State → Prop where
  | finished (e : CmdErr) (u : State) (he : e ≠ .illegal) (h : Commits i s e u) : Progress i s (finish e u)
  | issued (r : Request) (k : Nat) (l : Locals) (hk : stepIndex s < k) (hpos : stepIndex s ≠ 0)
      (hr : expectedRequest s.params i k = some r) (gate : stepIndex s = 1 → s.initState = .ready ∨ isInit i = true)
      (quiet : stepIndex s = 1 → (i = .start ∨ i = .measure) → s.convPending = false)
      (elapsed : stepIndex s = 1 → i = .read → s.convPending = false ∨ convElapsed s = true)
      (held : ∀ d, i = .init d → (stepIndex s = 1 → l.offset = initOffset d s) ∧
        (stepIndex s ≠ 1 → l.offset = (stepLocals s).offset)) :
      Progress i s (issue r k l s)
  | faulted (f : Fault) (hk : stepIndex s = 1) (hr : s.initState = .ready) (hp : s.convPending = true)
      (hf : (f = .retrigger ∧ (i = .start ∨ i = .measure)) ∨ (f = .earlyRead ∧ i = .read ∧ convElapsed s = false)) :
      Progress i s (raiseFault f s)

theorem prologue_progress {i : Instr} {s t : State} {body : Result State} (h : prologue i s body = .next t)
    (hb : (s.initState = .ready ∨ isInit i = true) → badArg s.params i = false → body = .next t → Progress i s t) :
    Progress i s t := by
  rcases prologue_cases i s body with ⟨_, h2, h3⟩ | ⟨_, h2, h3⟩ | ⟨h1, h2, h3⟩
  · rw [h3] at h
    injection h with h
    subst h
    exact .finished _ _ (by simp) (.nothing _ (by simp))
  · rw [h3] at h
    injection h with h
    subst h
    exact .finished _ _ (by simp) (.nothing _ (by simp))
  · exact hb h1 h2 (h3 ▸ h)

/-! ## One lemma per command -/

theorem execInit_progress {d : Bool} {s t : State} (h : execInit d s = .next t) : Progress (.init d) s t := by
  unfold execInit at h
  split at h
  · rename_i hk
    refine prologue_progress h fun _ _ h' => ?_
    injection h' with h'
    subst h'
    exact .issued _ _ _ (by omega) (by omega) (by simp [expectedRequest, initRequest]) (by simp [isInit]) (by simp) (by simp)
      (fun d' hd => by cases hd; exact ⟨fun _ => rfl, fun hn => absurd hk hn⟩)
  · rename_i hk
    rcases onAck_cases s _ with ⟨r, ok, ho, he⟩ | he <;> rw [he] at h
    · split at h
      · split at h
        · rename_i hb
          injection h with h
          subst h
          refine .issued _ _ _ (by omega) (by omega) ?_ (by omega) (by omega) (by omega)
            (fun d' _ => ⟨by omega, fun _ => rfl⟩)
          simp [expectedRequest, initRequest, hb]
        · injection h with h
          subst h
          exact .issued _ _ _ (by omega) (by omega) (by simp [expectedRequest, initRequest]) (by omega) (by omega)
            (by omega) (fun d' _ => ⟨by omega, fun _ => rfl⟩)
      · injection h with h
        subst h
        exact .finished _ _ (by simp) (.initWriteFailed rfl)
    · cases h
  · rename_i hk
    rcases onDone_cases s (.next (identityIssue 4 s)) with ⟨r, ho, he⟩ | he <;> rw [he] at h
    · injection h with h
      subst h
      exact .issued _ _ _ (by omega) (by omega) (by simp [expectedRequest, initRequest]) (by omega) (by omega)
        (by omega) (fun d' _ => ⟨by omega, fun _ => rfl⟩)
    · cases h
  · rename_i hk
    unfold identityFirst at h
    rcases onData_cases s _ with ⟨r, ok, bytes, ho, he⟩ | he <;> rw [he] at h
    · dsimp only at h
      split at h
      · injection h with h
        subst h
        exact .issued _ _ _ (by omega) (by omega) (by simp [expectedRequest, initRequest]) (by omega) (by omega)
          (by omega) (fun d' _ => ⟨by omega, fun _ => rfl⟩)
      · injection h with h
        subst h
        exact .finished _ _ (by simp) (.initReadFailed rfl)
    · cases h
  · rename_i hk
    rcases onData_cases s _ with ⟨r, ok, bytes, ho, he⟩ | he <;> rw [he] at h
    · split at h
      · injection h with h
        subst h
        unfold finishInit
        split
        · exact .finished _ _ (by simp) (.initMismatched rfl _ _)
        · exact .finished _ _ (by simp) (.initialized rfl hk _ _)
      · injection h with h
        subst h
        exact .finished _ _ (by simp) (.initReadFailed rfl)
    · cases h
  · cases h

theorem execReset_progress {s t : State} (h : execReset s = .next t) : Progress .reset s t := by
  unfold execReset at h
  split at h
  · rename_i hk
    refine prologue_progress h fun hg _ h' => ?_
    injection h' with h'
    subst h'
    exact .issued _ _ _ (by omega) (by omega) (by simp [expectedRequest]) (fun _ => hg) (by simp) (by simp) (by simp)
  · rcases onAck_cases s _ with ⟨r, ok, ho, he⟩ | he <;> rw [he] at h
    · injection h with h
      subst h
      cases ok
      · exact .finished _ _ (by simp) (.nothing _ (by simp))
      · exact .finished _ _ (by simp) (.cleared _ (.inl rfl))
    · cases h
  · cases h

theorem execSetlp_progress {e : Bool} {s t : State} (h : execSetlp e s = .next t) : Progress (.setlp e) s t := by
  unfold execSetlp at h
  split at h
  · rename_i hk
    refine prologue_progress h fun hg _ h' => ?_
    injection h' with h'
    subst h'
    exact .issued _ _ _ (by omega) (by omega) (by simp [expectedRequest]) (fun _ => hg) (by simp) (by simp) (by simp)
  · rcases onAck_cases s _ with ⟨r, ok, ho, he⟩ | he <;> rw [he] at h
    · injection h with h
      subst h
      exact .finished _ _ (by cases ok <;> simp) (.nothing _ (by simp [isInit]))
    · cases h
  · cases h

theorem execReadid_progress {s t : State} (h : execReadid s = .next t) : Progress .readid s t := by
  unfold execReadid at h
  split at h
  · rename_i hk
    refine prologue_progress h fun hg _ h' => ?_
    injection h' with h'
    subst h'
    exact .issued _ _ _ (by omega) (by omega) (by simp [expectedRequest, readidRequest]) (fun _ => hg) (by simp) (by simp)
      (by simp)
  · rename_i hk
    unfold identityFirst at h
    rcases onData_cases s _ with ⟨r, ok, bytes, ho, he⟩ | he <;> rw [he] at h
    · dsimp only at h
      split at h
      · injection h with h
        subst h
        exact .issued _ _ _ (by omega) (by omega) (by simp [expectedRequest, readidRequest]) (by omega) (by simp) (by simp)
          (by simp)
      · injection h with h
        subst h
        exact .finished _ _ (by simp) (.nothing _ (by simp [isInit]))
    · cases h
  · rcases onData_cases s _ with ⟨r, ok, bytes, ho, he⟩ | he <;> rw [he] at h
    · injection h with h
      subst h
      cases ok
      · exact .finished _ _ (by simp) (.nothing _ (by simp))
      · exact .finished _ _ (by simp) (.identified rfl _ _)
    · cases h
  · cases h

/-- Everything issuing trigger write `j` can do. -/
theorem triggerIssue_cases (j : Nat) (s : State) (done : Bool → Result State) :
    (∃ r, triggerRequest s.params j = some r ∧ triggerIssue j s done = .next (issue r (j + 2) (stepLocals s) s)) ∨
      (s.params.triggerWrites.length ≤ j ∧ triggerIssue j s done = done true) := by
  unfold triggerIssue triggerRequest
  cases hj : s.params.triggerWrites[j]? with
  | none => exact .inr ⟨List.getElem?_eq_none_iff.mp hj, rfl⟩
  | some w => exact .inl ⟨_, rfl, rfl⟩

theorem triggerRequest_lt {p : Params} {j : Nat} {r : Request} (h : triggerRequest p j = some r) :
    j < p.triggerWrites.length := by
  unfold triggerRequest at h
  cases hj : p.triggerWrites[j]? with
  | none => simp [hj] at h
  | some w => exact (List.getElem?_eq_some_iff.mp hj).1

theorem startDone_progress {s t : State} {ok : Bool} (h : startDone s ok = .next t) : Progress .start s t := by
  unfold startDone at h
  injection h with h
  subst h
  cases ok
  · exact .finished _ _ (by simp) (.cleared _ (.inr rfl))
  · exact .finished _ _ (by simp) (.begun rfl)

theorem execStart_progress {s t : State} (h : execStart s = .next t) : Progress .start s t := by
  unfold execStart at h
  split at h
  · cases h
  · rename_i hk
    refine prologue_progress h fun hg _ h' => ?_
    split at h'
    · rename_i hp
      injection h' with h'
      subst h'
      exact .faulted _ hk (by simpa [isInit] using hg) hp (.inl ⟨rfl, .inl rfl⟩)
    · rename_i hc
      rcases triggerIssue_cases 0 s (startDone s) with ⟨r, hr, he⟩ | ⟨_, he⟩ <;> rw [he] at h'
      · injection h' with h'
        subst h'
        exact .issued _ _ _ (by omega) (by omega) (by simpa [expectedRequest] using hr) (fun _ => hg)
          (fun _ _ => by simpa using hc) (by simp) (by simp)
      · exact startDone_progress h'
  · rename_i j hk
    split at h
    · unfold triggerStep at h
      rcases onAck_cases s _ with ⟨r, ok, ho, he⟩ | he <;> rw [he] at h
      · split at h
        · rcases triggerIssue_cases (j + 1) s (startDone s) with ⟨r, hr, he⟩ | ⟨_, he⟩ <;> rw [he] at h
          · injection h with h
            subst h
            exact .issued _ _ _ (by omega) (by omega) (by simpa [expectedRequest] using hr) (by omega) (by omega) (by simp)
              (by simp)
          · exact startDone_progress h
        · exact startDone_progress h
      · cases h
    · cases h

theorem execWait_progress {ms : BitVec 24} {s t : State} (h : execWait ms s = .next t) : Progress (.wait ms) s t := by
  unfold execWait at h
  split at h
  · rename_i hk
    refine prologue_progress h fun hg _ h' => ?_
    injection h' with h'
    subst h'
    exact .issued _ _ _ (by omega) (by omega) (by simp [expectedRequest]) (fun _ => hg) (by simp) (by simp) (by simp)
  · rcases onDone_cases s (.next (finish .none (commitWait ms s))) with ⟨r, ho, he⟩ | he <;> rw [he] at h
    · injection h with h
      subst h
      exact .finished _ _ (by simp) (.waited ms rfl)
    · cases h
  · cases h

theorem readIssue_eq (base : Nat) (s : State) :
    readIssue base s = issue (firstReadRequest s.params) (base + 1) (stepLocals s) s := by
  unfold readIssue firstReadRequest
  cases h : s.params.readMode <;> simp

/-- Everything the step that consumes the first read can do. -/
theorem readFirst_cases (base : Nat) (s : State) :
    (∃ r l, secondReadRequest s.params = some r ∧ readFirst base s = .next (issue r (base + 2) l s)) ∨
      (∃ okT mwT okH mwH, readFirst base s = .next (finishReadings okT mwT okH mwH s)) ∨
      readFirst base s = .refused .sequencerIncoherent := by
  unfold readFirst secondReadRequest
  rcases onData_cases s _ with ⟨r, ok, bytes, ho, he⟩ | he <;> rw [he]
  · cases hm : s.params.readMode
    · exact .inl ⟨_, _, rfl, rfl⟩
    · exact .inr (.inl ⟨_, _, _, _, rfl⟩)
  · exact .inr (.inr rfl)

/-- Everything the step that consumes the second read can do. -/
theorem readSecond_cases (s : State) :
    (∃ okT mwT okH mwH, readSecond s = .next (finishReadings okT mwT okH mwH s)) ∨
      readSecond s = .refused .sequencerIncoherent := by
  unfold readSecond
  cases hm : s.params.readMode
  · dsimp only
    rcases onData_cases s _ with ⟨r, ok, bytes, ho, he⟩ | he <;> rw [he]
    · exact .inl ⟨_, _, _, _, rfl⟩
    · exact .inr rfl
  · exact .inr rfl

theorem finishReadings_progress {i : Instr} {s : State} (hi : i = .read ∨ i = .measure) (okT : Bool) (mwT : Word)
    (okH : Bool) (mwH : Word) : Progress i s (finishReadings okT mwT okH mwH s) :=
  .finished _ _ (by cases okT <;> cases okH <;> simp) (.readings _ hi okT mwT okH mwH)

theorem execRead_progress {s t : State} (h : execRead s = .next t) : Progress .read s t := by
  unfold execRead at h
  split at h
  · rename_i hk
    refine prologue_progress h fun hg _ h' => ?_
    split at h'
    · rename_i hc
      injection h' with h'
      subst h'
      rw [Bool.and_eq_true, Bool.not_eq_true'] at hc
      exact .faulted _ hk (by simpa [isInit] using hg) hc.1 (.inr ⟨rfl, rfl, hc.2⟩)
    · rename_i hc
      injection h' with h'
      subst h'
      rw [readIssue_eq]
      refine .issued _ _ _ (by omega) (by omega) (by simp [expectedRequest, readRequest]) (fun _ => hg) (by simp) ?_ (by simp)
      intro _ _
      cases hp : s.convPending
      · exact .inl rfl
      · right; simpa [hp] using hc
  · rename_i hk
    rcases readFirst_cases 1 s with ⟨r, l, hr, he⟩ | ⟨okT, mwT, okH, mwH, he⟩ | he <;> rw [he] at h
    · injection h with h
      subst h
      exact .issued _ _ _ (by omega) (by omega) (by simpa [expectedRequest, readRequest] using hr) (by omega) (by simp)
        (by omega) (by simp)
    · injection h with h
      subst h
      exact finishReadings_progress (.inl rfl) _ _ _ _
    · cases h
  · rcases readSecond_cases s with ⟨okT, mwT, okH, mwH, he⟩ | he <;> rw [he] at h
    · injection h with h
      subst h
      exact finishReadings_progress (.inl rfl) _ _ _ _
    · cases h
  · cases h

theorem measureTriggered_progress {s t : State} {ok : Bool} (h : measureTriggered s ok = .next t)
    (hk : stepIndex s < s.params.triggerWrites.length + 2) (hpos : stepIndex s ≠ 0)
    (gate : stepIndex s = 1 → s.initState = .ready) (quiet : stepIndex s = 1 → s.convPending = false) :
    Progress .measure s t := by
  unfold measureTriggered at h
  injection h with h
  subst h
  cases ok
  · exact .finished _ _ (by simp) (.triggerFailed rfl)
  · exact .issued _ _ _ hk hpos (by simp [expectedRequest, measureRequest]) (fun h1 => .inl (gate h1))
      (fun h1 _ => quiet h1) (by simp) (by simp)

theorem measureRequest_trigger {p : Params} {j : Nat} {r : Request} (h : triggerRequest p j = some r) :
    measureRequest p (j + 2) = some r := by
  have hlt := triggerRequest_lt h
  unfold measureRequest
  rw [if_neg (by omega), if_pos (by omega)]
  simpa using h

theorem execMeasure_progress {s t : State} (h : execMeasure s = .next t) : Progress .measure s t := by
  unfold execMeasure at h
  split at h
  · cases h
  · rename_i hk
    refine prologue_progress h fun hg _ h' => ?_
    have hg' : s.initState = .ready := by simpa [isInit] using hg
    split at h'
    · rename_i hp
      injection h' with h'
      subst h'
      exact .faulted _ hk hg' hp (.inl ⟨rfl, .inr rfl⟩)
    · rename_i hc
      have hc' : s.convPending = false := by simpa using hc
      rcases triggerIssue_cases 0 s (measureTriggered s) with ⟨r, hr, he⟩ | ⟨hn, he⟩ <;> rw [he] at h'
      · injection h' with h'
        subst h'
        exact .issued _ _ _ (by omega) (by omega) (measureRequest_trigger hr) (fun _ => hg) (fun _ _ => hc') (by simp)
          (by simp)
      · exact measureTriggered_progress h' (by omega) (by omega) (fun _ => hg') (fun _ => hc')
  · rename_i j hk
    split at h
    · rename_i hj
      unfold triggerStep at h
      rcases onAck_cases s _ with ⟨r, ok, ho, he⟩ | he <;> rw [he] at h
      · split at h
        · rcases triggerIssue_cases (j + 1) s (measureTriggered s) with ⟨r, hr, he⟩ | ⟨hn, he⟩ <;> rw [he] at h
          · injection h with h
            subst h
            exact .issued _ _ _ (by omega) (by omega) (measureRequest_trigger hr) (by omega) (by omega) (by simp) (by simp)
          · exact measureTriggered_progress h (by omega) (by omega) (by omega) (by omega)
        · exact measureTriggered_progress h (by omega) (by omega) (by omega) (by omega)
      · cases h
    · split at h
      · rename_i hj
        rcases onDone_cases s (.next (readIssue (j + 2) s)) with ⟨r, ho, he⟩ | he <;> rw [he] at h
        · injection h with h
          subst h
          rw [readIssue_eq]
          exact .issued _ _ _ (by omega) (by omega) (by simp [expectedRequest, measureRequest, hj]) (by omega) (by omega)
            (by simp) (by simp)
        · cases h
      · split at h
        · rename_i hj
          rcases readFirst_cases (j + 1) s with ⟨r, l, hr, he⟩ | ⟨okT, mwT, okH, mwH, he⟩ | he <;> rw [he] at h
          · injection h with h
            subst h
            refine .issued _ _ _ (by omega) (by omega) ?_ (by omega) (by omega) (by simp) (by simp)
            subst hj
            simpa [expectedRequest, measureRequest, Nat.add_assoc] using hr
          · injection h with h
            subst h
            exact finishReadings_progress (.inr rfl) _ _ _ _
          · cases h
        · split at h
          · rcases readSecond_cases s with ⟨okT, mwT, okH, mwH, he⟩ | he <;> rw [he] at h
            · injection h with h
              subst h
              exact finishReadings_progress (.inr rfl) _ _ _ _
            · cases h
          · cases h

theorem execValidate_progress {s t : State} (h : execValidate s = .next t) : Progress .validate s t := by
  unfold execValidate at h
  split at h
  · refine prologue_progress h fun _ _ h' => ?_
    injection h' with h'
    subst h'
    exact .finished _ _ (by simp) (.validated rfl)
  · cases h

theorem conversion_progress {i : Instr} {u : ScaleUnit} {src : BitVec 2} {mult : BitVec 16} {s t : State}
    (hi : IsConversion i) (h : conversion i u src mult s = .next t) : Progress i s t := by
  have hn : isInit i = false := by
    obtain ⟨_, _, rfl | rfl | rfl | rfl⟩ := hi <;> rfl
  unfold conversion at h
  split at h
  · refine prologue_progress h fun _ _ h' => ?_
    split at h'
    · injection h' with h'
      subst h'
      unfold finishConverted
      split
      · exact .finished _ _ (by simp) (.converted hi _)
      · exact .finished _ _ (by simp) (.nothing _ (by simp))
    · injection h' with h'
      subst h'
      exact .finished _ _ (by simp) (.nothing _ (by simp))
  · cases h

/-- Everything one step of a command can do. -/
theorem exec_progress {i : Instr} {s t : State} (h : exec i s = .next t) : Progress i s t := by
  cases i with
  | init d => exact execInit_progress h
  | reset => exact execReset_progress h
  | setlp e => exact execSetlp_progress h
  | readid => exact execReadid_progress h
  | start => exact execStart_progress h
  | wait ms => exact execWait_progress h
  | read => exact execRead_progress h
  | measure => exact execMeasure_progress h
  | validate => exact execValidate_progress h
  | kelvin src mult => exact conversion_progress ⟨src, mult, .inl rfl⟩ h
  | celsius src mult => exact conversion_progress ⟨src, mult, .inr (.inl rfl)⟩ h
  | fahrenheit src mult => exact conversion_progress ⟨src, mult, .inr (.inr (.inl rfl))⟩ h
  | humidity src mult => exact conversion_progress ⟨src, mult, .inr (.inr (.inr rfl))⟩ h

end Sys2Proof.Machine
end

