-- ==== Sys2Proof/Laws/PerInstr.lean ====
section
/-! SUPPORT. What holds of every command as syntax, one lemma per command: `OPC`, the first thing the decoder reads
(30_encoding.md R90, R96), is the command's own opcode in the word that spells it. -/

namespace Sys2Proof

/-- The low bits of an append are its second part (00_scope.md R9). -/
theorem extractLsb'_zero_append {v w : Nat} (x : BitVec v) (y : BitVec w) : (x ++ y).extractLsb' 0 w = y := by
  apply BitVec.eq_of_getLsbD_eq
  intro i hi
  simp [BitVec.getLsbD_append, hi]

/-- `OPC` of a format-N word. -/
theorem opcodeField_wordN (opc : BitVec 4) : opcodeField (wordN opc) = opc := extractLsb'_zero_append _ _

/-- `OPC` of a format-E word. -/
theorem opcodeField_wordE (f : Bool) (opc : BitVec 4) : opcodeField (wordE f opc) = opc := extractLsb'_zero_append _ _

/-- `OPC` of a format-W word. -/
theorem opcodeField_wordW (ms : BitVec 24) (opc : BitVec 4) : opcodeField (wordW ms opc) = opc :=
  extractLsb'_zero_append _ _

/-- `OPC` of a format-C word. -/
theorem opcodeField_wordC (src : BitVec 2) (mult : BitVec 16) (opc : BitVec 4) :
    opcodeField (wordC src mult opc) = opc := extractLsb'_zero_append _ _

namespace Laws.OpcodeField

/-- The word that spells a command carries its opcode (R95). -/
def Statement (i : Instr) : Prop := opcodeField (encode i) = opcodeOf i

theorem init (useDefault : Bool) : Statement (.init useDefault) := opcodeField_wordE _ _
theorem reset : Statement .reset := opcodeField_wordN _
theorem setlp (enable : Bool) : Statement (.setlp enable) := opcodeField_wordE _ _
theorem readid : Statement .readid := opcodeField_wordN _
theorem start : Statement .start := opcodeField_wordN _
theorem wait (ms : BitVec 24) : Statement (.wait ms) := opcodeField_wordW _ _
theorem read : Statement .read := opcodeField_wordN _
theorem measure : Statement .measure := opcodeField_wordN _
theorem validate : Statement .validate := opcodeField_wordN _
theorem kelvin (src : BitVec 2) (mult : BitVec 16) : Statement (.kelvin src mult) := opcodeField_wordC _ _ _
theorem celsius (src : BitVec 2) (mult : BitVec 16) : Statement (.celsius src mult) := opcodeField_wordC _ _ _
theorem fahrenheit (src : BitVec 2) (mult : BitVec 16) : Statement (.fahrenheit src mult) := opcodeField_wordC _ _ _
theorem humidity (src : BitVec 2) (mult : BitVec 16) : Statement (.humidity src mult) := opcodeField_wordC _ _ _

end Laws.OpcodeField

end Sys2Proof
end

