-- ==== Sys2Proof/Laws/Step.lean ====
section
/-! SUPPORT. Everything one step of the block can do. -/

namespace Sys2Proof.Machine

/-- The state as the agent that moves finds it: the script without the move being made. -/
def popped (s : State) : State := { s with script := s.script.tail }

/-- What the agent that moves can bring the state `s` (already popped) to. -/
inductive Moved (s : State) (script : List Move) : State → Prop where
  /-- Nothing to do: the sequencer in `IDLE` or waiting, or an answer to nothing. -/
  | stayed : Moved s script s
  | hosted (a : HostAccess) (rest : List Move) (hs : script = .host a :: rest) : Moved s script (hostAccess a s)
  | illegal (hw : waiting s = false) (hp : s.phase ≠ .idle) (e : DecodeError) (hd : decode s.curCmd = .error e) :
      Moved s script (finish .illegal s)
  | ran (hw : waiting s = false) (op : BitVec 4) (k : Nat) (l : Locals) (hp : s.phase = .exec op k l) (i : Instr)
      (hd : decode s.curCmd = .ok i) (t : State) (ht : exec i s = .next t) : Moved s script t
  | answeredBy (r : Request) (ho : s.outstanding = some { request := r, answer := none }) (a : Option Answer)
      (ha : ∀ x, a = some x → answerFits r x) (n : Nat) :
      Moved s script { s with outstanding := some { request := r, answer := a }, draws := n }
  | blockReset (rest : List Move) (hs : script = .blockReset :: rest) : Moved s script (blockReset s)

theorem step_faulted {s : State} {f : Fault} (h : s.faulted = some f) : step s = .fault f := by
  simp [step, h]

theorem step_script_cons {s : State} {m : Move} {rest : List Move} (hf : s.faulted = none) (hs : s.script = m :: rest) :
    step s = takeMove m { s with script := rest } := by
  simp only [step, hf, hs]

theorem step_script_nil {s : State} (hf : s.faulted = none) (hs : s.script = []) : step s = fairMove s := by
  simp only [step, hf, hs]

theorem sequencerMove_run {s : State} {op : BitVec 4} {k : Nat} {l : Locals} {i : Instr} (hp : s.phase = .exec op k l)
    (hw : waiting s = false) (hd : decode s.curCmd = .ok i) : sequencerMove s = exec i s := by
  simp only [sequencerMove, hp, hw, runCommand, hd, Bool.false_eq_true, if_false]

theorem sequencerMove_illegal {s : State} {op : BitVec 4} {k : Nat} {l : Locals} {e : DecodeError}
    (hp : s.phase = .exec op k l) (hw : waiting s = false) (hd : decode s.curCmd = .error e) :
    sequencerMove s = .next (finish .illegal s) := by
  simp only [sequencerMove, hp, hw, runCommand, hd, Bool.false_eq_true, if_false]

theorem sequencerMove_idle {s : State} (hp : s.phase = .idle) : sequencerMove s = .next s := by
  simp only [sequencerMove, hp]

theorem sequencerMove_waiting {s : State} (hw : waiting s = true) : sequencerMove s = .next s := by
  unfold sequencerMove
  split
  · rfl
  · simp [hw]

/-- Everything the sequencer's move can do. -/
theorem sequencerMove_cases (s : State) :
    sequencerMove s = .next s ∨
      (waiting s = false ∧ s.phase ≠ .idle ∧ (∃ e, decode s.curCmd = .error e) ∧
        sequencerMove s = .next (finish .illegal s)) ∨
      (waiting s = false ∧ ∃ op k l i, s.phase = .exec op k l ∧ decode s.curCmd = .ok i ∧ sequencerMove s = exec i s) := by
  cases hp : s.phase with
  | idle => exact .inl (sequencerMove_idle hp)
  | exec op k l =>
    cases hw : waiting s with
    | true => exact .inl (sequencerMove_waiting hw)
    | false =>
      cases hd : decode s.curCmd with
      | error e => exact .inr (.inl ⟨rfl, by simp, ⟨e, rfl⟩, sequencerMove_illegal hp hw hd⟩)
      | ok i => exact .inr (.inr ⟨rfl, op, k, l, i, rfl, rfl, sequencerMove_run hp hw hd⟩)

theorem sequencerMove_moved {s t : State} {script : List Move} (h : sequencerMove s = .next t) : Moved s script t := by
  rcases sequencerMove_cases s with he | ⟨hw, hp, ⟨e, hd⟩, he⟩ | ⟨hw, op, k, l, i, hp, hd, he⟩ <;> rw [he] at h
  · cases h
    exact .stayed
  · cases h
    exact .illegal hw hp e hd
  · exact .ran hw op k l hp i hd t h

theorem answerWith_moved (f : Request → Option Answer) (hf : ∀ r a, f r = some a → answerFits r a) (s : State)
    (script : List Move) : Moved s script (answerWith f s) := by
  rcases answerWith_cases f s with ⟨r, ho, he⟩ | ⟨_, he⟩
  · rw [he]
    exact .answeredBy r ho (f r) (hf r) s.draws
  · rw [he]
    exact .stayed

/-- Everything a step can do: the block has no fault, and one agent has moved. -/
theorem step_cases {s t : State} (h : step s = .next t) : s.faulted = none ∧ Moved (popped s) s.script t := by
  cases hf : s.faulted with
  | some f => rw [step_faulted hf] at h; cases h
  | none =>
    refine ⟨rfl, ?_⟩
    cases hs : s.script with
    | nil =>
      have hpop : popped s = s := by unfold popped; rw [hs]; cases s; simp_all
      rw [step_script_nil hf hs] at h
      rw [hpop]
      unfold fairMove at h
      split at h
      · rename_i hw
        obtain ⟨r, ho⟩ := (waiting_iff s).1 hw
        cases h
        have he : drawAnswer s =
            { s with outstanding := some { request := r, answer := freeAnswer s.draws r }, draws := s.draws + 1 } := by
          unfold drawAnswer answerWith
          simp only [ho]
        rw [he]
        exact .answeredBy r ho _ (fun x hx => freeAnswer_fits hx) _
      · exact sequencerMove_moved h
    | cons m rest =>
      have hpop : popped s = { s with script := rest } := by unfold popped; rw [hs]; rfl
      rw [step_script_cons hf hs] at h
      rw [hpop]
      cases m with
      | host a => cases h; exact .hosted a rest rfl
      | sequencer => exact sequencerMove_moved h
      | bus ok bytes => cases h; exact answerWith_moved _ (fun r a ha => busAnswer_fits ha) _ _
      | delayDone => cases h; exact answerWith_moved _ (fun r a ha => delayAnswer_fits ha) _ _
      | blockReset => cases h; exact .blockReset rest rfl

/-! ## Runs -/

theorem run_zero (s : State) : Sys2Proof.core.run 0 s = .next s := rfl

/-- A run goes on from the state its first step answers. -/
theorem run_succ (n : Nat) {s t : State} (h : step s = .next t) :
    Sys2Proof.core.run (n + 1) s = Sys2Proof.core.run n t := by
  have h' : Sys2Proof.core.step s = .next t := h
  show Host.Core.run Sys2Proof.core (n + 1) s = _
  simp only [Host.Core.run, h']

end Sys2Proof.Machine
end

