-- ==== Sys2Proof/Tests/Slice0.lean ====
section
/-! SUPPORT. Small tests: what the checks of WellFormed.lean refuse, words of 30_encoding.md written out and decoded, single
steps with the values of 95_test_vectors.md, and for every statement with hypotheses a state that meets them. Expected
values are the spec's; the vector is named where there is one. -/

namespace Sys2Proof.Tests

open Sys2Proof.Machine

/-! ## States -/

/-- The init'd block of 95_test_vectors.md section 4, with parameters `p`. -/
def initd (p : Params) : State :=
  { State.resetOf p with
    calOffset := 3#32, partId := 0x0210#16, uidLo := 0x04030201#32, uidHi := 0x08070605#32, initState := .ready
    lastOpc := 1#4 }

/-- `s` at step `k` of the command word `w`, with `o` outstanding. -/
def at' (w : Word) (k : Nat) (o : Option Outstanding) (s : State) : State :=
  { s with curCmd := w, curArg := s.arg0, busy := true, phase := .exec (opcodeField w) k Locals.start, outstanding := o }

/-- The outcome is a next state with the property. -/
def nextWith (r : Result State) (p : State → Bool) : Bool :=
  match r with
  | .next t => p t
  | .fault _ => false
  | .refused _ => false

theorem at_step (w : Word) (k : Nat) (o : Option Outstanding) (s : State) : AtStep (at' w k o s) k Locals.start o :=
  ⟨⟨_, rfl⟩, rfl⟩

/-- The answers that the vectors give most often. -/
def acked (ok : Bool) : Option Outstanding := answered (.busWrite 0x10#8 0x80#8) (.ack ok)

def delayed : Option Outstanding := answered (.delay 130#24) .done

def dataOf (ok : Bool) (bytes : List Byte) : Option Outstanding := answered (.busRead 0x30#8 bytes.length) (.data ok bytes)

/-- Two trigger writes; no trigger write; a boot delay; combined reads. -/
def twoWrites : Params := { defaultParams with triggerList := [(.other 0x21#8, 0x00#8), (.sensStart, 0x03#8)] }

def noWrites : Params := { defaultParams with triggerList := [] }

def bootDelay : Params := { defaultParams with initBootDelayMs := 2#24 }

def combined : Params := { defaultParams with readMode := .combined }

/-- The init'd block with a conversion pending and `ms` milliseconds waited. -/
def pending (ms : Word) (p : Params) : State := { initd p with convPending := true, waitAcc := ms }

/-! ## Well-formedness refuses what it should -/

theorem test_wordWf_refuses_reserved_opcodes :
    wordWf 0x00000000#32 = false ∧ wordWf 0x0000000E#32 = false ∧ wordWf 0x0000000F#32 = false := by decide

theorem test_wordWf_refuses_reserved_bit_of_format_N : wordWf 0x00000015#32 = false := by decide

theorem test_wordWf_refuses_reserved_bit_of_format_E : wordWf 0x00000201#32 = false ∧ wordWf 0x00000083#32 = false := by
  decide

theorem test_wordWf_refuses_reserved_bit_of_format_W : wordWf 0x00000016#32 = false := by decide

/-- V-C63. -/
theorem test_wordWf_refuses_reserved_bit_of_format_C : wordWf 0x0001050A#32 = false := by decide

/-- V-C60 to V-C62. -/
theorem test_argsLegal_refuses :
    (Instr.kelvin 0#2 0#16).argsLegal defaultParams = false ∧
    (Instr.celsius 1#2 10001#16).argsLegal defaultParams = false ∧
    (Instr.fahrenheit 3#2 1#16).argsLegal defaultParams = false ∧
    (Instr.humidity 2#2 0#16).argsLegal defaultParams = false ∧
    (Instr.humidity 2#2 10000#16).argsLegal defaultParams = true := by decide

theorem test_params_refuses_combined_with_distant_words :
    Params.combinedReadable { combined with regHVal := 0x33#8 } = false ∧ combined.combinedReadable = true := by decide

theorem test_params_refuses_generator_of_lower_degree :
    Params.generatorDegree7 { defaultParams with crcPoly := 0x09#8 } = false := by decide

theorem test_params_refuses_empty_reads :
    Params.readsSomeBytes { defaultParams with uidBytes := 0 } = false ∧
    Params.readsSomeBytes { defaultParams with partIdBytes := 0 } = false := by decide

theorem test_params_refuses_wide_valid_code :
    Params.validCodesFit { deviceParams with validCodes := [0b10] } = false := by decide

theorem test_params_defaults_are_wf : defaultParams.wf = true ∧ deviceParams.wf = true := by decide

/-! ## Words written out from R91 to R95 -/

theorem test_decode_init :
    decode 0b0000000000000000000000000000_0001#32 = .ok (.init false) ∧
    decode 0b00000000000000000000000_1_0000_0001#32 = .ok (.init true) := by decide

theorem test_decode_reset : decode 0b0000000000000000000000000000_0010#32 = .ok .reset := by decide

theorem test_decode_setlp :
    decode 0b00000000000000000000000_1_0000_0011#32 = .ok (.setlp true) ∧
    decode 0b00000000000000000000000_0_0000_0011#32 = .ok (.setlp false) := by decide

theorem test_decode_readid : decode 0b0000000000000000000000000000_0100#32 = .ok .readid := by decide

theorem test_decode_start : decode 0b0000000000000000000000000000_0101#32 = .ok .start := by decide

/-- V-P10: `WAIT 65` is `0x00004106`. -/
theorem test_decode_wait :
    decode 0b000000000000000001000001_0000_0110#32 = .ok (.wait 65#24) ∧
    decode 0b100000000000000000000000_0000_0110#32 = .ok (.wait 0x800000#24) := by decide

theorem test_decode_read : decode 0b0000000000000000000000000000_0111#32 = .ok .read := by decide

theorem test_decode_measure : decode 0b0000000000000000000000000000_1000#32 = .ok .measure := by decide

theorem test_decode_validate : decode 0b0000000000000000000000000000_1001#32 = .ok .validate := by decide

theorem test_decode_kelvin : decode 0b0010011100010000_000000_01_0000_1010#32 = .ok (.kelvin 1#2 10000#16) := by decide

theorem test_decode_celsius : decode 0b0000000001100100_000000_10_0000_1011#32 = .ok (.celsius 2#2 100#16) := by decide

theorem test_decode_fahrenheit : decode 0b1000000000000001_000000_00_0000_1100#32 = .ok (.fahrenheit 0#2 0x8001#16) := by
  decide

theorem test_decode_humidity : decode 0b0000000000000001_000000_11_0000_1101#32 = .ok (.humidity 3#2 1#16) := by decide

/-- V-P22, V-P23, V-C63. -/
theorem test_decode_refuses :
    decode 0x00000015#32 = .error .reservedBits ∧ decode 0x0000000E#32 = .error .reservedOpcode ∧
    decode 0x0001050A#32 = .error .reservedBits ∧ decode 0x00000000#32 = .error .reservedOpcode := by decide

theorem test_encode :
    encode (.wait 65#24) = 0x00004106#32 ∧ encode (.kelvin 1#2 10000#16) = 0x2710010A#32 ∧
    encode (.setlp true) = 0x00000103#32 ∧ encode .validate = 0x00000009#32 := by decide

theorem test_decodeTableWord :
    decodeTableWord 32 0x0064020D = some (.humidity 2#2 100#16) ∧ decodeTableWord 32 0x15 = none := by decide

/-! ## The operations -/

/-- 41_validator.md R182's worked values. -/
theorem test_crc7 :
    crc7 0x89#8 0x7F#7 0#32 19 = 0x7F#7 ∧ crc7 0x89#8 0x7F#7 0x24600#32 19 = 0x76#7 ∧
    crc7 0x89#8 0x7F#7 0x14600#32 17 = 0x07#7 := by decide +kernel

/-- V-V1, V-V2, V-V15 and V-V23. -/
theorem test_classify_doc :
    classify defaultParams 0x03B24600#32 = .ok ∧ classify defaultParams 0x01404600#32 = .invalid ∧
    classify defaultParams 0x03B04600#32 = .crcError ∧ classify defaultParams 0x83B24600#32 = .ok := by decide +kernel

/-- V-VD1, V-VD2 and V-VD8. -/
theorem test_classify_device :
    classify deviceParams 0x0F4600#32 = .ok ∧ classify deviceParams 0x504600#32 = .invalid ∧
    classify deviceParams 0x0F4601#32 = .crcError := by decide +kernel

/-- 42_converter.md R211's values. -/
theorem test_rdiv : rdiv 32 64 = 1 ∧ rdiv 31 64 = 0 ∧ rdiv (-32) 64 = -1 ∧ rdiv (-31) 64 = 0 := by decide

/-- V-C10, V-C31 and V-C32: the two conversion forms differ. -/
theorem test_convert_forms :
    convert .exact .celsius 17000 100 0 = -753 ∧ convert .twoTerm .celsius 17000 100 0 = -752 ∧
    convert .exact .fahrenheit 15000 100 0 = -3780 ∧ convert .twoTerm .fahrenheit 15000 100 0 = -3779 ∧
    convert .exact .fahrenheit 15002 10 0 = -377 ∧ convert .twoTerm .fahrenheit 15002 10 0 = -378 := by decide

/-- 20_memory.md R65: the bytes of V-P1 and of R135's example. -/
theorem test_little_endian :
    le [0x00#8, 0x46#8, 0xB2#8, 0x03#8] = 0x03B24600 ∧ le [0x10#8, 0x02#8] = 0x0210 := by decide

/-- 40_protocol.md R140: one write of `0x03` to `REG_SENS_START`, at its default and at another address. -/
theorem test_trigger_writes :
    defaultParams.triggerWrites = [(0x22#8, 0x03#8)] ∧
    Params.triggerWrites { defaultParams with regSensStart := 0x44#8 } = [(0x44#8, 0x03#8)] := by decide

/-- V-P28, V-P29: an unmapped read faults; a write to `RESULT` is ignored. -/
theorem test_host_access :
    (hostAccess (.read 0x34#6 32) State.reset).faulted = some .hostAccess ∧
    hostAccess (.write 0x0C#6 32 7#32) State.reset = State.reset := by decide

/-! ## One step of each command -/

/-- V-P2: the first step issues the reset write. -/
theorem test_init_first_step :
    nextWith (exec (.init true) (at' 0x101#32 1 none State.reset))
      (fun t => t.outstanding == some ⟨.busWrite 0x10#8 0x80#8, none⟩ && t.busy) = true := by decide

/-- V-P3: the wrong part identifier; `CTRL_STAT = 0x5104`. -/
theorem test_init_id_mismatch :
    nextWith
      (exec (.init true)
        { at' 0x101#32 5 (answered (.busRead 0x04#8 8) (.data true [1, 2, 3, 4, 5, 6, 7, 8])) State.reset with
          phase := .exec 1#4 5 { Locals.start with offset := 3#32, partId := 0x0211#16 } })
      (fun t => ctrlStat t == 0x5104#32 && t.partId == 0x0211#16 && t.uidHi == 0x08070605#32 && t.calOffset == 0#32) =
      true := by decide

/-- V-P14. -/
theorem test_reset_done :
    nextWith (exec .reset (at' 0x2#32 2 (acked true) (pending 0#32 defaultParams))) (fun t => ctrlStat t == 0x202#32) =
      true := by decide

/-- V-P15. -/
theorem test_reset_failed :
    nextWith (exec .reset (at' 0x2#32 2 (acked false) (pending 0#32 defaultParams))) (fun t => ctrlStat t == 0x420A#32) =
      true := by decide

/-- V-P17. -/
theorem test_setlp_value :
    nextWith (exec (.setlp true) (at' 0x103#32 1 none (initd defaultParams)))
      (fun t => t.outstanding == some ⟨.busWrite 0x10#8 0x01#8, none⟩) = true := by decide

/-- V-P18. -/
theorem test_setlp_failed :
    nextWith (exec (.setlp false) (at' 0x3#32 2 (acked false) (initd defaultParams)))
      (fun t => t.cmdErr == .bus && t.lastOpc == 3#4 && !t.busy) = true := by decide

/-- V-P19. -/
theorem test_readid_done :
    nextWith
      (exec .readid
        { at' 0x4#32 3 (answered (.busRead 0x04#8 8) (.data true [0, 1, 2, 3, 4, 5, 6, 7])) (initd defaultParams) with
          phase := .exec 4#4 3 { Locals.start with partId := 0x1234#16 } })
      (fun t => t.partId == 0x1234#16 && t.uidLo == 0x03020100#32 && t.uidHi == 0x07060504#32 && t.cmdErr == .none) =
      true := by decide

/-- V-P20. -/
theorem test_readid_failed :
    nextWith (exec .readid (at' 0x4#32 2 (answered (.busRead 0x00#8 2) (.data false [0, 0])) (initd defaultParams)))
      (fun t => t.partId == 0x0210#16 && t.cmdErr == .bus && t.outstanding == none) = true := by decide

/-- V-P9. -/
theorem test_start_done :
    nextWith (exec .start (at' 0x5#32 2 (answered (.busWrite 0x22#8 0x03#8) (.ack true)) (initd defaultParams)))
      (fun t => ctrlStat t == 0x50A#32) = true := by decide

/-- V-P12. -/
theorem test_start_retrigger :
    nextWith (exec .start (at' 0x5#32 1 none { pending 0#32 defaultParams with lastOpc := 5#4 }))
      (fun t => t.faulted == some .retrigger && ctrlStat t == 0x50B#32) = true := by decide

/-- V-P10: the second `WAIT 65`. -/
theorem test_wait_accumulates :
    nextWith (exec (.wait 65#24) (at' 0x4106#32 2 (answered (.delay 65#24) .done) (pending 65#32 defaultParams)))
      (fun t => ctrlStat t == 0x61A#32) = true := by decide

/-- 10_state.md R44: the sum saturates. -/
theorem test_wait_saturates :
    nextWith (exec (.wait 65#24) (at' 0x4106#32 2 (answered (.delay 65#24) .done) (pending 0xFFFFFFF0#32 defaultParams)))
      (fun t => t.waitAcc == 0xFFFFFFFF#32) = true := by decide

/-- V-P11. -/
theorem test_read_early :
    nextWith (exec .read (at' 0x7#32 1 none { pending 129#32 defaultParams with lastOpc := 5#4 }))
      (fun t => t.faulted == some .earlyRead && ctrlStat t == 0x50B#32) = true := by decide

/-- V-P1: the finishing step. -/
theorem test_read_done :
    nextWith
      (exec .read
        { at' 0x7#32 3 (answered (.busRead 0x34#8 4) (.data true [0x00, 0x64, 0x92, 0x00])) (initd defaultParams) with
          phase := .exec 7#4 3 { Locals.start with tOk := true, tWord := 0x03B24600#32 } })
      (fun t => t.tData == 17920#17 && t.tStatus == .ok && t.hData == 25600#17 && t.hStatus == .ok &&
        ctrlStat t == 0x702#32) = true := by decide +kernel

/-- V-P5. -/
theorem test_measure_trigger_failed :
    nextWith (exec .measure (at' 0x8#32 2 (answered (.busWrite 0x22#8 0x03#8) (.ack false)) (initd defaultParams)))
      (fun t => t.tStatus == .busError && t.hStatus == .busError && t.outstanding == none && ctrlStat t == 0x4802#32) =
      true := by decide

/-- V-P8: both words in one read. -/
theorem test_measure_combined :
    nextWith
      (exec .measure
        (at' 0x8#32 4
          (answered (.busRead 0x30#8 8) (.data true [0x00, 0x46, 0xB2, 0x03, 0x00, 0x64, 0x92, 0x00])) (initd combined)))
      (fun t => t.tData == 17920#17 && t.hData == 25600#17 && t.hStatus == .ok && ctrlStat t == 0x802#32) = true := by
  decide +kernel

/-- V-V14: the data field is written although the check code is wrong. -/
theorem test_validate :
    nextWith (exec .validate (at' 0x9#32 1 none { initd defaultParams with arg0 := 0x03B34600#32 }))
      (fun t => t.result == 83456#32 && t.vStatus == .crcError && t.cmdErr == .none) = true := by decide +kernel

/-- V-C66. -/
theorem test_kelvin :
    nextWith (exec (.kelvin 1#2 10000#16) (at' 0x2710010A#32 1 none { initd defaultParams with tData := 17920#17 }))
      (fun t => t.result == 2799531#32 && t.cmdErr == .none) = true := by decide

/-- V-C42: out of range, `RESULT` kept. -/
theorem test_kelvin_range :
    nextWith
      (exec (.kelvin 0#2 10000#16)
        (at' 0x2710000A#32 1 none { initd defaultParams with arg0 := 0x7FFFFFFF#32, calOffset := 0#32, result := 9#32 }))
      (fun t => t.result == 9#32 && ctrlStat t == 0x6A02#32) = true := by decide

/-- V-C6. -/
theorem test_celsius :
    nextWith (exec (.celsius 1#2 100#16) (at' 0x0064010B#32 1 none { initd defaultParams with tData := 17920#17 }))
      (fun t => t.result == 680#32) = true := by decide

/-- V-C41: a negative result, and a negative raw input less the offset. -/
theorem test_fahrenheit :
    nextWith
      (exec (.fahrenheit 0#2 10000#16)
        (at' 0x2710000C#32 1 none { initd defaultParams with calOffset := 131071#32 }))
      (fun t => t.result.toInt == -41460419) = true := by decide

/-- V-C28: the offset is not applied. -/
theorem test_humidity :
    nextWith (exec (.humidity 2#2 100#16) (at' 0x0064020D#32 1 none { initd defaultParams with hData := 25600#17 }))
      (fun t => t.result == 5000#32) = true := by decide

/-- V-P21: `START` before `INIT`. -/
theorem test_not_ready :
    nextWith (exec .start (at' 0x5#32 1 none State.reset)) (fun t => ctrlStat t == 0x1500#32) = true := by decide

/-- V-P22: an illegal word. -/
theorem test_illegal_word :
    nextWith (step (at' 0x15#32 1 none (initd defaultParams))) (fun t => ctrlStat t == 0x2502#32) = true := by decide

/-! ## States that meet the hypotheses of the statements, named after them -/

theorem witness_EncodeOfDecodeIsTheWord : decode 0x0064020D#32 = .ok (.humidity 2#2 100#16) := by decide

theorem witness_DecodableWordsAreTheTableRows :
    decode 0x00000101#32 = .ok (.init true) ∧
    ∃ r ∈ opcodeTable, 0x00000101#32 &&& r.mask = r.pattern := ⟨by decide, ⟨"INIT", 1#32, 0xFFFFFEFF#32⟩, by decide⟩

/-- The sequencer named by the script, and the script run out. -/
theorem witness_StepRunsTheDecodedCommand :
    (let s := { at' 0x2#32 2 (acked true) (initd defaultParams) with script := [.sequencer] };
      s.faulted = none ∧ s.phase = .exec 2#4 2 Locals.start ∧
      (∀ r, s.outstanding ≠ some { request := r, answer := none }) ∧ decode s.curCmd = .ok .reset ∧
      s.script = .sequencer :: []) ∧
    (let s := at' 0x2#32 1 none (initd defaultParams);
      s.faulted = none ∧ s.phase = .exec 2#4 1 Locals.start ∧
      (∀ r, s.outstanding ≠ some { request := r, answer := none }) ∧ decode s.curCmd = .ok .reset ∧ s.script = []) := by
  refine ⟨⟨rfl, rfl, fun r h => ?_, by decide, rfl⟩, rfl, rfl, fun r h => ?_, by decide, rfl⟩ <;> cases h

theorem witness_PlacedWordRunsAtTheNextStep : decodeTableWord 32 0x00004106 = some (.wait 65#24) := by decide

theorem witness_IllegalWordIsAcceptedAndFinishesIllegal :
    (let s := { initd defaultParams with script := [.host (.write 0x00#6 32 0x15#32), .sequencer] };
      AtRest s ∧ (∀ r ∈ opcodeTable, 0x15#32 &&& r.mask ≠ r.pattern) ∧
      s.script = .host (.write 0x00#6 32 0x15#32) :: .sequencer :: []) ∧
    (∀ r ∈ opcodeTable, 0x0#32 &&& r.mask ≠ r.pattern) ∧ (∀ r ∈ opcodeTable, 0xE#32 &&& r.mask ≠ r.pattern) := by
  refine ⟨⟨⟨rfl, rfl, rfl, rfl⟩, by decide, rfl⟩, by decide, by decide⟩

/-- Before any `INIT`, and after one that failed. -/
theorem witness_UnreadyBlockRefusesEveryCommandButInit :
    (let s := at' 0x5#32 1 none State.reset;
      AtStep s 1 Locals.start none ∧ s.initState ≠ .ready ∧ ∀ d, Instr.start ≠ .init d) ∧
    (let s := at' 0x0000030A#32 1 none { State.reset with initState := .failed };
      AtStep s 1 Locals.start none ∧ s.initState ≠ .ready ∧ ∀ d, Instr.kelvin 3#2 0#16 ≠ .init d) := by
  refine ⟨⟨at_step .., by decide, fun d h => ?_⟩, at_step .., by decide, fun d h => ?_⟩ <;> cases h

/-- Each of the three refused operands, at its boundary, and steps that answer `BAD_ARG`. -/
theorem witness_IllegalOperandsFinishBadArg :
    (let s := at' 0x2711030A#32 1 none (initd defaultParams);
      AtStep s 1 Locals.start none ∧ s.initState = .ready ∧ s.params.multMax.toNat < (10001#16).toNat ∧
      ¬ s.params.multMax.toNat < (10000#16).toNat) ∧
    (∃ t, exec (.kelvin 3#2 1#16) (at' 0x0001030A#32 1 none (initd defaultParams)) = .next t ∧ t.cmdErr = .badArg) ∧
    (∃ t, exec (.humidity 0#2 0#16) (at' 0x0000000D#32 1 none (initd defaultParams)) = .next t ∧ t.cmdErr = .badArg) ∧
    (∃ t, exec (.celsius 1#2 10001#16) (at' 0x2711010B#32 1 none (initd defaultParams)) = .next t ∧ t.cmdErr = .badArg) ∧
    (at' 0x0001030A#32 1 none (initd defaultParams)).cmdErr ≠ .badArg := by
  refine ⟨⟨at_step .., rfl, by decide, by decide⟩, ⟨_, rfl, rfl⟩, ⟨_, rfl, rfl⟩, ⟨_, rfl, rfl⟩, by decide⟩

/-- One state for each clause, in order. -/
theorem witness_InitFollowsItsSteps :
    AtStep (at' 0x101#32 1 none State.reset) 1 Locals.start none ∧
    AtStep (at' 0x101#32 2 (acked false) State.reset) 2 Locals.start (acked false) ∧
    (let s := at' 0x101#32 2 (acked true) (State.resetOf bootDelay);
      AtStep s 2 Locals.start (acked true) ∧ s.params.initBootDelayMs ≠ 0#24) ∧
    (let s := at' 0x101#32 2 (acked true) State.reset;
      AtStep s 2 Locals.start (acked true) ∧ s.params.initBootDelayMs = 0#24) ∧
    AtStep (at' 0x101#32 3 delayed (State.resetOf bootDelay)) 3 Locals.start delayed ∧
    AtStep (at' 0x101#32 4 (dataOf true [0x10, 0x02]) State.reset) 4 Locals.start (dataOf true [0x10, 0x02]) ∧
    AtStep (at' 0x101#32 4 (dataOf false [0, 0]) State.reset) 4 Locals.start (dataOf false [0, 0]) ∧
    AtStep (at' 0x101#32 5 (dataOf false [0]) State.reset) 5 Locals.start (dataOf false [0]) ∧
    (let s := at' 0x101#32 5 (dataOf true [1, 2, 3, 4, 5, 6, 7, 8]) State.reset;
      AtStep s 5 Locals.start (dataOf true [1, 2, 3, 4, 5, 6, 7, 8]) ∧
      Locals.start.partId ≠ s.params.expectedPartId) ∧
    (let s := { at' 0x101#32 5 (dataOf true [1, 2, 3, 4, 5, 6, 7, 8]) State.reset with
        phase := .exec 1#4 5 { Locals.start with partId := 0x0210#16 } };
      AtStep s 5 { Locals.start with partId := 0x0210#16 } (dataOf true [1, 2, 3, 4, 5, 6, 7, 8]) ∧
      0x0210#16 = s.params.expectedPartId) := by
  refine ⟨at_step .., at_step .., ⟨at_step .., by decide⟩, ⟨at_step .., rfl⟩, at_step .., at_step .., at_step ..,
    at_step .., ⟨at_step .., by decide⟩, ⟨⟨_, rfl⟩, rfl⟩, rfl⟩

theorem witness_ResetFollowsItsSteps :
    (let s := at' 0x2#32 1 none (initd defaultParams);
      AtStep s 1 Locals.start none ∧ s.initState = .ready) ∧
    AtStep (at' 0x2#32 2 (acked true) (initd defaultParams)) 2 Locals.start (acked true) ∧
    AtStep (at' 0x2#32 2 (acked false) (initd defaultParams)) 2 Locals.start (acked false) :=
  ⟨⟨at_step .., rfl⟩, at_step .., at_step ..⟩

theorem witness_SetlpFollowsItsSteps :
    (let s := at' 0x103#32 1 none (initd defaultParams);
      AtStep s 1 Locals.start none ∧ s.initState = .ready) ∧
    AtStep (at' 0x103#32 2 (acked false) (initd defaultParams)) 2 Locals.start (acked false) :=
  ⟨⟨at_step .., rfl⟩, at_step ..⟩

theorem witness_ReadidFollowsItsSteps :
    (let s := at' 0x4#32 1 none (initd defaultParams);
      AtStep s 1 Locals.start none ∧ s.initState = .ready) ∧
    AtStep (at' 0x4#32 2 (dataOf true [0x34, 0x12]) (initd defaultParams)) 2 Locals.start (dataOf true [0x34, 0x12]) ∧
    AtStep (at' 0x4#32 2 (dataOf false [0, 0]) (initd defaultParams)) 2 Locals.start (dataOf false [0, 0]) ∧
    AtStep (at' 0x4#32 3 (dataOf true [0, 1, 2, 3, 4, 5, 6, 7]) (initd defaultParams)) 3 Locals.start
      (dataOf true [0, 1, 2, 3, 4, 5, 6, 7]) :=
  ⟨⟨at_step .., rfl⟩, at_step .., at_step .., at_step ..⟩

/-- A conversion pending; one, none and two trigger writes; a failed, a middle and the last write. -/
theorem witness_StartFollowsItsSteps :
    (let s := at' 0x5#32 1 none (pending 130#32 defaultParams);
      AtStep s 1 Locals.start none ∧ s.initState = .ready ∧ s.convPending = true) ∧
    (let s := at' 0x5#32 1 none (initd defaultParams);
      AtStep s 1 Locals.start none ∧ s.initState = .ready ∧ s.convPending = false ∧
      s.params.triggerWrites[0]? = some (0x22#8, 0x03#8)) ∧
    (let s := at' 0x5#32 1 none (initd noWrites);
      AtStep s 1 Locals.start none ∧ s.initState = .ready ∧ s.convPending = false ∧ s.params.triggerWrites = []) ∧
    (let s := at' 0x5#32 3 (acked false) (initd twoWrites);
      AtStep s (1 + 2) Locals.start (acked false) ∧ 1 < s.params.triggerWrites.length) ∧
    (let s := at' 0x5#32 2 (acked true) (initd twoWrites);
      AtStep s (0 + 2) Locals.start (acked true) ∧ s.params.triggerWrites[0 + 1]? = some (0x22#8, 0x03#8)) ∧
    (let s := at' 0x5#32 3 (acked true) (initd twoWrites);
      AtStep s (1 + 2) Locals.start (acked true) ∧ 1 + 1 = s.params.triggerWrites.length) := by
  refine ⟨⟨at_step .., rfl, rfl⟩, ⟨at_step .., rfl, rfl, rfl⟩, ⟨at_step .., rfl, rfl, rfl⟩, ⟨at_step .., by decide⟩,
    ⟨at_step .., rfl⟩, at_step .., rfl⟩

theorem witness_WaitFollowsItsSteps :
    (let s := at' 0x6#32 1 none (initd defaultParams);
      AtStep s 1 Locals.start none ∧ s.initState = .ready) ∧
    (let s := at' 0x4106#32 2 delayed (initd defaultParams);
      AtStep s 2 Locals.start delayed ∧ s.convPending = false) ∧
    (let s := at' 0x4106#32 2 delayed (pending 0xFFFFFFFF#32 defaultParams);
      AtStep s 2 Locals.start delayed ∧ s.convPending = true) :=
  ⟨⟨at_step .., rfl⟩, ⟨at_step .., rfl⟩, at_step .., rfl⟩

/-- One millisecond short, none pending, exactly waited out, and each read under each mode. -/
theorem witness_ReadFollowsItsSteps :
    (let s := at' 0x7#32 1 none (pending 129#32 defaultParams);
      AtStep s 1 Locals.start none ∧ s.initState = .ready ∧ s.convPending = true ∧
      s.waitAcc.toNat < s.params.tConvMs.toNat) ∧
    (let s := at' 0x7#32 1 none (initd defaultParams);
      AtStep s 1 Locals.start none ∧ s.initState = .ready ∧ s.convPending = false) ∧
    (let s := at' 0x7#32 1 none (pending 130#32 defaultParams);
      AtStep s 1 Locals.start none ∧ s.initState = .ready ∧ s.params.tConvMs.toNat ≤ s.waitAcc.toNat) ∧
    (let s := at' 0x7#32 2 (dataOf true [0x00, 0x46, 0xB2, 0x03]) (initd defaultParams);
      AtStep s 2 Locals.start (dataOf true [0x00, 0x46, 0xB2, 0x03]) ∧ s.params.readMode = .split) ∧
    (let s := at' 0x7#32 3 (dataOf false [0, 0, 0, 0]) (initd defaultParams);
      AtStep s 3 Locals.start (dataOf false [0, 0, 0, 0]) ∧ s.params.readMode = .split) ∧
    (let s := at' 0x7#32 2 (dataOf true [0x00, 0x46, 0xB2, 0x03, 0x00, 0x64, 0x92, 0x00]) (initd combined);
      AtStep s 2 Locals.start (dataOf true [0x00, 0x46, 0xB2, 0x03, 0x00, 0x64, 0x92, 0x00]) ∧
      s.params.readMode = .combined) := by
  refine ⟨⟨at_step .., rfl, rfl, by decide⟩, ⟨at_step .., rfl, rfl⟩, ⟨at_step .., rfl, by decide⟩, ⟨at_step .., rfl⟩,
    ⟨at_step .., rfl⟩, at_step .., rfl⟩

/-- One, none and two trigger writes, the wait, and each read under each mode. -/
theorem witness_MeasureFollowsItsSteps :
    (let s := at' 0x8#32 1 none (pending 130#32 defaultParams);
      s.params.triggerWrites.length = 1 ∧ AtStep s 1 Locals.start none ∧ s.initState = .ready ∧ s.convPending = true) ∧
    (let s := at' 0x8#32 1 none (initd defaultParams);
      AtStep s 1 Locals.start none ∧ s.initState = .ready ∧ s.convPending = false ∧
      s.params.triggerWrites[0]? = some (0x22#8, 0x03#8)) ∧
    (let s := at' 0x8#32 3 (acked false) (initd twoWrites);
      s.params.triggerWrites.length = 2 ∧ AtStep s (1 + 2) Locals.start (acked false) ∧ 1 < 2) ∧
    (let s := at' 0x8#32 2 (acked true) (initd twoWrites);
      AtStep s (0 + 2) Locals.start (acked true) ∧ s.params.triggerWrites[0 + 1]? = some (0x22#8, 0x03#8)) ∧
    (let s := at' 0x8#32 3 (acked true) (initd twoWrites);
      AtStep s (2 + 1) Locals.start (acked true) ∧ 2 ≠ 0) ∧
    (let s := at' 0x8#32 1 none (initd noWrites);
      s.params.triggerWrites.length = 0 ∧ AtStep s 1 Locals.start none ∧ s.initState = .ready ∧ s.convPending = false) ∧
    AtStep (at' 0x8#32 2 delayed (initd noWrites)) (0 + 2) Locals.start delayed ∧
    AtStep (at' 0x8#32 3 delayed (initd defaultParams)) (1 + 2) Locals.start delayed ∧
    (let s := at' 0x8#32 4 (dataOf true [0x00, 0x46, 0xB2, 0x03]) (initd defaultParams);
      AtStep s (1 + 3) Locals.start (dataOf true [0x00, 0x46, 0xB2, 0x03]) ∧ s.params.readMode = .split) ∧
    (let s := at' 0x8#32 5 (dataOf true [0x00, 0x64, 0x92, 0x00]) (initd defaultParams);
      AtStep s (1 + 4) Locals.start (dataOf true [0x00, 0x64, 0x92, 0x00]) ∧ s.params.readMode = .split) ∧
    (let s := at' 0x8#32 4 (dataOf false [0, 0, 0, 0, 0, 0, 0, 0]) (initd combined);
      AtStep s (1 + 3) Locals.start (dataOf false [0, 0, 0, 0, 0, 0, 0, 0]) ∧ s.params.readMode = .combined) := by
  refine ⟨⟨rfl, at_step .., rfl, rfl⟩, ⟨at_step .., rfl, rfl, rfl⟩, ⟨rfl, at_step .., by decide⟩, ⟨at_step .., rfl⟩,
    ⟨at_step .., by decide⟩, ⟨rfl, at_step .., rfl, rfl⟩, at_step .., at_step .., ⟨at_step .., rfl⟩, ⟨at_step .., rfl⟩,
    at_step .., rfl⟩

/-- The answers of V-P2, and of V-P3 after them. -/
theorem witness_InitRunsToItsEnd :
    let uid : List Byte := [1, 2, 3, 4, 5, 6, 7, 8]
    let s (pid : List Byte) : State := { State.reset with
      script := [.host (.write 0x00#6 32 0x00000101#32), .sequencer, .bus true [], .sequencer, .bus true pid, .sequencer,
        .bus true uid, .sequencer] ++ [] }
    (∀ pid, AtRest (s pid) ∧ (s pid).params.initBootDelayMs = 0#24 ∧ uid.length = (s pid).params.uidBytes) ∧
    [0x10#8, 0x02#8].length = (s []).params.partIdBytes ∧
    BitVec.ofNat 16 (le [0x10#8, 0x02#8]) = (s []).params.expectedPartId ∧
    BitVec.ofNat 16 (le [0x11#8, 0x02#8]) ≠ (s []).params.expectedPartId := by
  refine ⟨fun pid => ⟨⟨rfl, rfl, rfl, rfl⟩, rfl, rfl⟩, rfl, by decide, by decide⟩

/-- The answers of V-P6, with one trigger write and with none. -/
theorem witness_MeasureRunsToItsReadings :
    let bT : List Byte := [0, 0, 0, 0]
    let bH : List Byte := [0x00, 0x96, 0x8A, 0x03]
    let s (p : Params) : State := { initd p with
      script := .host (.write 0x00#6 32 0x00000008#32) ::
        ((List.replicate p.triggerWrites.length [Move.sequencer, Move.bus true []]).flatten ++
          ([.sequencer, .delayDone, .sequencer, .bus false bT, .sequencer, .bus true bH, .sequencer] ++ [])) }
    ∀ p ∈ [defaultParams, noWrites], AtRest (s p) ∧ (s p).initState = .ready ∧ (s p).convPending = false ∧
      (s p).params.readMode = .split ∧ bT.length = wordBytes (s p).params.layout ∧
      bH.length = wordBytes (s p).params.layout := by
  intro bT bH s p hp
  refine ⟨⟨rfl, rfl, rfl, rfl⟩, rfl, rfl, ?_⟩
  simp only [List.mem_cons, List.not_mem_nil, or_false] at hp
  rcases hp with rfl | rfl <;> exact ⟨rfl, rfl, rfl⟩

theorem witness_ValidateWritesDataAndStatus :
    let s := at' 0x9#32 1 none { initd defaultParams with arg0 := 0x03B24600#32 }
    AtStep s 1 Locals.start none ∧ s.initState = .ready := ⟨at_step .., rfl⟩

/-- V-V13, V-V2 and V-V1: one word for each clause. -/
theorem witness_ClassificationIsInPriorityOrder :
    let code (mw : Word) := (crc7 0x89#8 0x7F#7 (payloadField .doc mw) 19).setWidth 32
    code 0x03B24601#32 ≠ codeField .doc 0x03B24601#32 ∧
    (code 0x01404600#32 = codeField .doc 0x01404600#32 ∧ (validField .doc 0x01404600#32).toNat ∉ [1]) ∧
    (code 0x03B24600#32 = codeField .doc 0x03B24600#32 ∧ (validField .doc 0x03B24600#32).toNat ∈ [1]) := by
  decide +kernel

/-- V-V22 and V-V23: the lowest and the highest unused bit. -/
theorem witness_UnusedBitsAreIgnored :
    (∀ i, i < usedW .doc → (0x03B24600#32).getLsbD i = (0x07B24600#32).getLsbD i) ∧
    (∀ i, i < usedW .doc → (0x03B24600#32).getLsbD i = (0x83B24600#32).getLsbD i) ∧
    (∀ i, i < usedW .device → (0x000F4600#32).getLsbD i = (0xFF0F4600#32).getLsbD i) := by decide

theorem witness_CheckCodeIsThePolynomialRemainder :
    (0x89#8).getLsbD 7 = true ∧ 19 + 7 ≤ 32 ∧ (0x24600#32).toNat < 2 ^ 19 ∧ 25 + 7 ≤ 32 ∧ (0x1FFFFFF#32).toNat < 2 ^ 25 := by
  decide

/-- V-V13 and V-V18 are its flips of bits 0 and 25; V-VD1 under the other layout. -/
theorem witness_SingleBitErrorsAreDetected :
    (defaultParams.crcPoly = 0x89#8 ∧ 25 < usedW defaultParams.layout ∧ classify defaultParams 0x03B24600#32 ≠ .crcError) ∧
    (deviceParams.crcPoly = 0x89#8 ∧ 23 < usedW deviceParams.layout ∧ classify deviceParams 0x0F4600#32 ≠ .crcError) := by
  decide +kernel

/-- A tie: `rdiv(-32, 64)`. -/
theorem witness_RoundingDivisionIsToNearestHalvesAway : 0 < 64 ∧ 2 * |rdiv (-32) 64 * 64 - (-32)| = 64 := by
  simp only [test_rdiv.2.2.1]
  decide

/-- Each source, the smallest and the largest multiplier, a result in range and one out of it. -/
theorem witness_KelvinWritesTheRoundedTemperature :
    (let s := at' 0x2710000A#32 1 none { initd defaultParams with arg0 := 0x7FFFFFFF#32 };
      AtStep s 1 Locals.start none ∧ s.initState = .ready ∧ 10000#16 ≠ 0#16 ∧ (10000#16).toNat ≤ s.params.multMax.toNat ∧
      s.curArg.toInt = 2147483647 ∧ rdiv ((10000#16).toNat * (2147483647 - s.calOffset.toInt)) 64 > 2 ^ 31 - 1) ∧
    (let s := at' 0x0001010A#32 1 none { initd defaultParams with tData := 17920#17 };
      AtStep s 1 Locals.start none ∧ s.initState = .ready ∧ 1#16 ≠ 0#16 ∧ (1#16).toNat ≤ s.params.multMax.toNat ∧
      (s.tData.toNat : Int) = 17920 ∧ rdiv ((1#16).toNat * (17920 - s.calOffset.toInt)) 64 = 280) ∧
    (let s := at' 0x0001020A#32 1 none { initd defaultParams with hData := 131071#17 };
      AtStep s 1 Locals.start none ∧ s.initState = .ready ∧ (s.hData.toNat : Int) = 131071) := by
  refine ⟨⟨at_step .., rfl, ?_⟩, ⟨at_step .., rfl, ?_⟩, at_step .., rfl, ?_⟩ <;> decide

theorem witness_CelsiusWritesTheRoundedTemperature :
    (let s := at' 0x0064010B#32 1 none { initd defaultParams with tData := 17920#17 };
      AtStep s 1 Locals.start none ∧ s.initState = .ready ∧ 100#16 ≠ 0#16 ∧ (100#16).toNat ≤ s.params.multMax.toNat ∧
      (s.tData.toNat : Int) = 17920 ∧ s.params.convForm = .exact ∧
      rdiv (100 * 100 * (17920 - s.calOffset.toInt) - 1748160 * 100) 6400 = 680) ∧
    (let s := at' 0x2710000B#32 1 none { initd { defaultParams with convForm := .twoTerm } with arg0 := 0x80000000#32 };
      AtStep s 1 Locals.start none ∧ s.initState = .ready ∧ s.params.convForm = .twoTerm ∧
      s.curArg.toInt = -2147483648 ∧
      rdiv (10000 * (-2147483648 - s.calOffset.toInt)) 64 - rdiv (27315 * 10000) 100 < -(2 ^ 31)) := by
  refine ⟨⟨at_step .., rfl, ?_⟩, at_step .., rfl, ?_⟩ <;> decide

theorem witness_FahrenheitWritesTheRoundedTemperature :
    (let s := at' 0x0064010C#32 1 none { initd defaultParams with tData := 17920#17 };
      AtStep s 1 Locals.start none ∧ s.initState = .ready ∧ 100#16 ≠ 0#16 ∧ (100#16).toNat ≤ s.params.multMax.toNat ∧
      (s.tData.toNat : Int) = 17920 ∧ s.params.convForm = .exact ∧
      rdiv (900 * 100 * (17920 - s.calOffset.toInt) - 14709440 * 100) 32000 = 4425) ∧
    (let s := at' 0x2710000C#32 1 none { initd { defaultParams with convForm := .twoTerm } with arg0 := 0x80000000#32 };
      AtStep s 1 Locals.start none ∧ s.initState = .ready ∧ s.params.convForm = .twoTerm ∧
      s.curArg.toInt = -2147483648 ∧
      rdiv (9 * 10000 * (-2147483648 - s.calOffset.toInt)) 320 - rdiv (45967 * 10000) 100 < -(2 ^ 31)) := by
  refine ⟨⟨at_step .., rfl, ?_⟩, at_step .., rfl, ?_⟩ <;> decide

theorem witness_HumidityWritesTheRoundedHumidity :
    (let s := at' 0x2710020D#32 1 none { initd defaultParams with hData := 131071#17 };
      AtStep s 1 Locals.start none ∧ s.initState = .ready ∧ 10000#16 ≠ 0#16 ∧ (10000#16).toNat ≤ s.params.multMax.toNat ∧
      (s.hData.toNat : Int) = 131071 ∧ rdiv ((10000#16).toNat * 131071) 512 = 2559980) ∧
    (let s := at' 0x2710000D#32 1 none { initd defaultParams with arg0 := 0x7FFFFFFF#32 };
      AtStep s 1 Locals.start none ∧ s.initState = .ready ∧ s.curArg.toInt = 2147483647 ∧
      rdiv ((10000#16).toNat * 2147483647) 512 > 2 ^ 31 - 1) := by
  refine ⟨⟨at_step .., rfl, ?_⟩, at_step .., rfl, ?_⟩ <;> decide

theorem witness_NumeratorsFitSixtyFourBits : 65535 ≤ 65535 := by decide

/-- V-C40. -/
theorem witness_SensorRangeConversionsFit : (0 : Int) ≤ 131071 ∧ (131071 : Int) < 2 ^ 17 ∧ |(-131071 : Int)| < 2 ^ 17 ∧
    10000 ≤ 10000 := by decide

/-- An access of every kind the clauses name, at the ends of their ranges. -/
theorem witness_HostAccessesFollowTheirRules :
    (initd defaultParams).faulted = none ∧ (initd defaultParams).busy = false ∧
    (at' 0x8#32 1 none (initd defaultParams)).faulted = none ∧ (at' 0x8#32 1 none (initd defaultParams)).busy = true ∧
    (HostReg.uidHi ≠ .cmd ∧ HostReg.uidHi ≠ .arg0) ∧ (0x01#6).toNat % 4 ≠ 0 ∧ 0x34 ≤ (0x34#6).toNat ∧
    0x34 ≤ (0x3C#6).toNat ∧ (16 : Nat) ≠ 32 ∧
    (∀ m : Move, { initd defaultParams with script := [m] }.script = m :: []) := by
  refine ⟨rfl, rfl, rfl, rfl, ?_, ?_, ?_, ?_, ?_, fun m => rfl⟩ <;> decide

theorem witness_CommandsLeaveOperandsAndSurroundingsAlone :
    ∃ t, exec .reset (at' 0x2#32 2 (acked true) (initd defaultParams)) = .next t := ⟨_, rfl⟩

/-- `SETLP` is none of the commands that the clauses except. -/
theorem witness_RegistersAreWrittenByTheirCommandsOnly :
    (∃ t, exec (.setlp true) (at' 0x103#32 2 (acked true) (initd defaultParams)) = .next t) ∧
    (∀ e d src m ms, Instr.setlp e ≠ .init d ∧ Instr.setlp e ≠ .kelvin src m ∧ Instr.setlp e ≠ .celsius src m ∧
      Instr.setlp e ≠ .fahrenheit src m ∧ Instr.setlp e ≠ .humidity src m ∧ Instr.setlp e ≠ .wait ms ∧
      Instr.setlp e ≠ .validate ∧ Instr.setlp e ≠ .read ∧ Instr.setlp e ≠ .measure ∧ Instr.setlp e ≠ .readid ∧
      Instr.setlp e ≠ .reset ∧ Instr.setlp e ≠ .start) := by
  refine ⟨⟨_, rfl⟩, fun e d src m ms => ?_⟩
  simp

/-- The sequencer's move, and the host's write to `ARG0`. -/
theorem witness_RunningCommandsShowNoResults :
    (∃ t, step (at' 0x8#32 3 delayed (initd defaultParams)) = .next t ∧ t.busy = true) ∧
    (∃ t, step { at' 0x8#32 3 delayed (initd defaultParams) with script := [.host (.write 0x08#6 32 7#32)] } = .next t ∧
      t.busy = true ∧ t.arg0 = 7#32) ∧
    (at' 0x8#32 3 delayed (initd defaultParams)).busy = true := ⟨⟨_, rfl, rfl⟩, ⟨_, rfl, rfl, rfl⟩, rfl⟩

/-- `INIT`'s last step, and block reset of a block with an offset. -/
theorem witness_OnlySuccessfulInitWritesTheOffset :
    (∃ t, step { at' 0x101#32 5 (dataOf true [1, 2, 3, 4, 5, 6, 7, 8]) State.reset with
        phase := .exec 1#4 5 { Locals.start with offset := 3#32, partId := 0x0210#16 } } = .next t ∧
      t.calOffset ≠ State.reset.calOffset) ∧
    (∃ t, step { initd defaultParams with script := [.blockReset] } = .next t ∧ t.calOffset ≠ (initd defaultParams).calOffset) := by
  refine ⟨⟨_, rfl, ?_⟩, _, rfl, ?_⟩ <;> decide

/-- A refused command leaves it `FAILED`; an `INIT` that succeeds does not. -/
theorem witness_InitFailureIsSticky :
    (∃ t, step (at' 0x5#32 1 none { State.reset with initState := .failed }) = .next t ∧ t.initState = .failed) ∧
    (∃ t, step { at' 0x101#32 5 (dataOf true [1, 2, 3, 4, 5, 6, 7, 8]) { State.reset with initState := .failed } with
        phase := .exec 1#4 5 { Locals.start with offset := 3#32, partId := 0x0210#16 } } = .next t ∧
      t.initState = .ready) := ⟨⟨_, rfl, rfl⟩, _, rfl, rfl⟩

theorem witness_ConversionsIgnoreReadingStatuses :
    ∃ src m, Instr.humidity 2#2 100#16 = .kelvin src m ∨ Instr.humidity 2#2 100#16 = .celsius src m ∨
      Instr.humidity 2#2 100#16 = .fahrenheit src m ∨ Instr.humidity 2#2 100#16 = .humidity src m :=
  ⟨2#2, 100#16, .inr (.inr (.inr rfl))⟩

theorem witness_FaultedBlockTakesNoStep : (raiseFault .earlyRead State.reset).faulted = some .earlyRead := rfl

/-- Each of the four faults arises. -/
theorem witness_ModelFaultsAriseOnlyAsListed :
    (∃ t, step { at' 0x8#32 1 none (initd defaultParams) with script := [.host (.write 0x00#6 32 8#32)] } = .next t ∧
      t.faulted = some .cmdWhileBusy) ∧
    (∃ t, step (at' 0x5#32 1 none (pending 130#32 defaultParams)) = .next t ∧ t.faulted = some .retrigger) ∧
    (∃ t, step (at' 0x7#32 1 none (pending 129#32 defaultParams)) = .next t ∧ t.faulted = some .earlyRead) ∧
    (∃ t, step { State.reset with script := [.host (.read 0x34#6 32)] } = .next t ∧ t.faulted = some .hostAccess) :=
  ⟨⟨_, rfl, rfl⟩, ⟨_, rfl, rfl⟩, ⟨_, rfl, rfl⟩, _, rfl, rfl⟩

/-- A running command reset, and answers of both agents with nothing outstanding. -/
theorem witness_BlockResetSetsEveryField :
    (let s := { at' 0x8#32 3 delayed (initd defaultParams) with script := [.blockReset] };
      s.faulted = none ∧ s.script = .blockReset :: []) ∧
    (let s := { initd defaultParams with script := [.bus true [1]] };
      s.faulted = none ∧ s.outstanding = none ∧ s.script = .bus true [1] :: []) ∧
    (let s := { initd defaultParams with script := [.delayDone] };
      s.faulted = none ∧ s.outstanding = none ∧ s.script = .delayDone :: []) :=
  ⟨⟨rfl, rfl⟩, ⟨rfl, rfl, rfl⟩, rfl, rfl, rfl⟩

/-- A request of each kind without an answer, the answers of both agents to each, the boundary byte counts, and a request
already answered. -/
theorem witness_AnswersAreRecorded :
    let asked (r : Request) (m : Move) : State :=
      { at' 0x8#32 3 (some { request := r, answer := none }) (initd defaultParams) with script := [m] }
    (∀ r m, (asked r m).faulted = none ∧ (asked r m).outstanding = some { request := r, answer := none } ∧
      (asked r m).script = m :: []) ∧
    [0x10#8, 0x02#8].length = 2 ∧ [0x10#8].length ≠ 2 ∧ [0x10#8, 0x02#8, 0x00#8].length ≠ 2 ∧
    (let s := { at' 0x8#32 3 delayed (initd defaultParams) with script := [.delayDone] };
      s.faulted = none ∧ s.outstanding = some { request := .delay 130#24, answer := some .done } ∧
      s.script = .delayDone :: []) := by
  refine ⟨fun r m => ⟨rfl, rfl, rfl⟩, rfl, by decide, by decide, rfl, rfl, rfl⟩

theorem witness_UnscriptedRequestsAreAnsweredFreely :
    let s := at' 0x7#32 2 (some { request := .busRead 0x30#8 4, answer := none }) (initd defaultParams)
    s.faulted = none ∧ s.script = [] ∧ s.outstanding = some { request := .busRead 0x30#8 4, answer := none } :=
  ⟨rfl, rfl, rfl⟩

/-- The block just after it accepted `INIT.DEF` after reset. -/
def accepted : State := at' 0x101#32 1 none State.reset

theorem accepted_inv : BlockInv accepted := by
  have hp : ∀ {op k l}, accepted.phase = .exec op k l → op = 1#4 ∧ k = 1 := by
    intro op k l h
    cases h
    decide
  refine
    { busy_iff := by decide, idle_quiet := fun _ => rfl
      phase_opcode := fun op k l h => by rw [(hp h).1]; decide
      positioned := fun op k l h => .inl ⟨(hp h).2, rfl⟩
      past_gate := fun op k l i h hk => absurd (hp h).2 hk
      no_retrigger := fun op k l i h hk => absurd (hp h).2 hk
      no_early_read := fun op k l h hk => absurd (hp h).2 hk
      offset_held := fun op k l d h hk => absurd (hp h).2 hk
      wait_clear := fun _ => rfl, tData_fits := by decide, hData_fits := by decide, vStatus_ne := by decide
      statuses_together := Iff.rfl, reserved_lastOpc := fun _ => .inr ⟨rfl, rfl⟩ }

/-- The invariant holds of a running block, which has a next step. -/
theorem witness_EveryStepKeepsTheInvariant : BlockInv accepted ∧ ∃ t, step accepted = .next t := ⟨accepted_inv, _, rfl⟩

theorem witness_InvariantStatesAreNeverRefused : BlockInv accepted := accepted_inv

theorem witness_AcceptedCommandsFinish :
    BlockInv accepted ∧ accepted.faulted = none ∧ accepted.script = [] ∧ accepted.phase ≠ .idle :=
  ⟨accepted_inv, rfl, rfl, fun h => by cases h⟩

end Sys2Proof.Tests
end

section
/-! PROOFS. The invariant of the block (Safety.lean): what its registers keep, what each agent's move keeps of it, and
that no move from a state that meets it is refused. -/

namespace Sys2Proof.Machine

/-! ## Facts about the decoder and the validator -/

/-- Words with a reserved opcode are illegal (30_encoding.md R100). -/
theorem decode_reserved {w : Word} (h : opcodeField w = 0#4 ∨ opcodeField w = 0xE#4 ∨ opcodeField w = 0xF#4) :
    decode w = .error .reservedOpcode := by
  rcases h with h | h | h <;> simp [decode, h]

theorem bitField_lt (v : Word) (lsb w : Nat) : (bitField v lsb w).toNat < 2 ^ w := by
  have hmask : (BitVec.ofNat 32 (2 ^ w - 1)).toNat < 2 ^ w := by
    rw [BitVec.toNat_ofNat]
    exact lt_of_le_of_lt (Nat.mod_le _ _) (Nat.sub_lt (Nat.two_pow_pos w) Nat.one_pos)
  rw [bitField, BitVec.toNat_and]
  exact Nat.and_lt_two_pow _ hmask

theorem classify_ne (p : Params) (mw : Word) : classify p mw ≠ .none ∧ classify p mw ≠ .busError := by
  unfold classify
  split
  · simp
  · split <;> simp

/-- A reading always has a status (41_validator.md R183, 40_protocol.md R143). -/
theorem reading_status_ne_none (p : Params) (ok : Bool) (mw : Word) : (reading p ok mw).2 ≠ .none := by
  cases ok with
  | false => simp [reading]
  | true => exact (classify_ne p mw).1

/-- A reading leaves `DATA_W` bits in the data register (R7, R143). -/
theorem readingData_lt {old : BitVec 17} {p : Params} (ok : Bool) (mw : Word) (h : old.toNat < 2 ^ dataW p.layout) :
    (readingData old (reading p ok mw).1).toNat < 2 ^ dataW p.layout := by
  cases ok with
  | false => exact h
  | true =>
    show ((dataField p.layout mw).setWidth 17).toNat < _
    rw [BitVec.toNat_setWidth]
    exact lt_of_le_of_lt (Nat.mod_le _ _) (bitField_lt mw 0 _)

/-! ## What the commit groups keep of the registers -/

/-- The part of `BlockInv` that speaks of the registers which only commit groups write. -/
structure RegistersInv (s : State) : Prop where
  wait_clear : s.convPending = false → s.waitAcc = 0#32
  tData_fits : s.tData.toNat < 2 ^ dataW s.params.layout
  hData_fits : s.hData.toNat < 2 ^ dataW s.params.layout
  vStatus_ne : s.vStatus ≠ .busError
  statuses_together : s.tStatus = .none ↔ s.hStatus = .none

theorem BlockInv.registers {s : State} (h : BlockInv s) : RegistersInv s where
  wait_clear := h.wait_clear
  tData_fits := h.tData_fits
  hData_fits := h.hData_fits
  vStatus_ne := h.vStatus_ne
  statuses_together := h.statuses_together

theorem RegistersInv.clearConversion {s : State} (h : RegistersInv s) : RegistersInv (clearConversion s) :=
  { h with wait_clear := fun _ => rfl }

theorem RegistersInv.beginConversion {s : State} (h : RegistersInv s) : RegistersInv (beginConversion s) :=
  { h with wait_clear := fun _ => rfl }

/-- `WAIT` counts only while a conversion is pending (40_protocol.md R137). -/
theorem RegistersInv.commitWait {s : State} (ms : BitVec 24) (h : RegistersInv s) : RegistersInv (commitWait ms s) := by
  unfold Machine.commitWait
  split
  case isTrue hp => exact { h with wait_clear := fun hn => absurd hn (by simp [hp]) }
  case isFalse => exact h

theorem RegistersInv.commitReadings {s : State} (okT : Bool) (mwT : Word) (okH : Bool) (mwH : Word)
    (h : RegistersInv s) :
    RegistersInv (commitReadings (reading s.params okT mwT) (reading s.params okH mwH) s) where
  wait_clear := fun _ => rfl
  tData_fits := readingData_lt okT mwT h.tData_fits
  hData_fits := readingData_lt okH mwH h.hData_fits
  vStatus_ne := h.vStatus_ne
  statuses_together := iff_of_false (reading_status_ne_none _ okT mwT) (reading_status_ne_none _ okH mwH)

/-- Every commit group keeps the registers' part of the invariant. -/
theorem Commits.registers {i : Instr} {s u : State} {e : CmdErr} (hc : Commits i s e u) (h : RegistersInv s) :
    RegistersInv u := by
  cases hc with
  | nothing => exact h
  | initWriteFailed => exact { h with }
  | initReadFailed => exact { h.clearConversion with }
  | initMismatched => exact { h.clearConversion with }
  | initialized => exact { h.clearConversion with }
  | cleared => exact h.clearConversion
  | identified => exact { h with }
  | begun => exact h.beginConversion
  | waited ms => exact h.commitWait ms
  | readings _ _ okT mwT okH mwH => exact h.commitReadings okT mwT okH mwH
  | triggerFailed => exact { h with statuses_together := by simp }
  | validated => exact { h with vStatus_ne := (classify_ne _ _).2 }
  | converted => exact { h with }

/-- No commit group writes the latched command word (10_state.md R43). -/
theorem Commits.curCmd_eq {i : Instr} {s u : State} {e : CmdErr} (hc : Commits i s e u) : u.curCmd = s.curCmd := by
  cases hc <;> simp

/-! ## What each move keeps of the invariant -/

/-- The invariant does not look at `ARG0`, `faulted`, or the model's own script, draws and read data. -/
theorem BlockInv.frame {s : State} (h : BlockInv s) (arg0 : Word) (faulted : Option Fault) (script : List Move)
    (draws : Nat) (readData : Option Word) :
    BlockInv { s with arg0 := arg0, faulted := faulted, script := script, draws := draws, readData := readData } :=
  { h with }

theorem BlockInv.popped {s : State} (h : BlockInv s) : BlockInv (popped s) := h.frame _ _ _ _ _

theorem BlockInv.raiseFault {s : State} (f : Fault) (h : BlockInv s) : BlockInv (raiseFault f s) := h.frame _ _ _ _ _

/-- In `IDLE` the sequencer's part of the invariant says only that nothing runs and nothing is asked. -/
theorem blockInv_of_idle {s : State} (hp : s.phase = .idle) (hb : s.busy = false) (ho : s.outstanding = none)
    (hr : RegistersInv s)
    (hl : (s.lastOpc = 0#4 ∨ s.lastOpc = 0xE#4 ∨ s.lastOpc = 0xF#4) →
      s.cmdErr = .illegal ∨ (s.lastOpc = 0#4 ∧ s.cmdErr = .none)) :
    BlockInv s where
  busy_iff := by simp [hp, hb]
  idle_quiet := fun _ => ho
  phase_opcode := by simp [hp]
  positioned := by simp [hp]
  past_gate := by simp [hp]
  no_retrigger := by simp [hp]
  no_early_read := by simp [hp]
  offset_held := by simp [hp]
  wait_clear := hr.wait_clear
  tData_fits := hr.tData_fits
  hData_fits := hr.hData_fits
  vStatus_ne := hr.vStatus_ne
  statuses_together := hr.statuses_together
  reserved_lastOpc := hl

/-- A command ends in `IDLE`; `LAST_OPC` is reserved only if the word was illegal (60_exceptions.md R252, R100). -/
theorem blockInv_finish {e : CmdErr} {u : State} (hr : RegistersInv u)
    (he : decode u.curCmd = .error .reservedOpcode → e = .illegal) : BlockInv (finish e u) :=
  blockInv_of_idle rfl rfl rfl { hr with } fun h => .inl (he (decode_reserved h))

theorem blockInv_blockReset (s : State) : BlockInv (blockReset s) :=
  blockInv_of_idle rfl rfl rfl
    { wait_clear := fun _ => rfl, tData_fits := Nat.two_pow_pos _, hData_fits := Nat.two_pow_pos _,
      vStatus_ne := by simp, statuses_together := by simp }
    fun _ => .inr ⟨rfl, rfl⟩

/-- An accepted command stands at step 1, with nothing asked since the block was idle (40_protocol.md R130). -/
theorem BlockInv.acceptCommand {s : State} (w : Word) (h : BlockInv s) (hb : s.busy = false) :
    BlockInv (acceptCommand w s) := by
  have hquiet : s.outstanding = none := h.idle_quiet (by simpa [hb] using h.busy_iff)
  have hstep : ∀ {op k l}, (Machine.acceptCommand w s).phase = .exec op k l → op = opcodeField w ∧ k = 1 := by
    rintro _ _ _ ⟨⟩
    exact ⟨rfl, rfl⟩
  exact
    { h with
      busy_iff := by simp
      idle_quiet := fun hi => by cases hi
      phase_opcode := fun _ _ _ hp => (hstep hp).1
      positioned := fun _ _ _ hp => .inl ⟨(hstep hp).2, hquiet⟩
      past_gate := fun _ _ _ _ hp hk => absurd (hstep hp).2 hk
      no_retrigger := fun _ _ _ _ hp hk => absurd (hstep hp).2 hk
      no_early_read := fun _ _ _ hp hk => absurd (hstep hp).2 hk
      offset_held := fun _ _ _ _ hp hk => absurd (hstep hp).2 hk }

theorem BlockInv.hostAccess {s : State} (a : HostAccess) (h : BlockInv s) : BlockInv (hostAccess a s) := by
  rcases hostAccess_cases a s with ⟨v, he⟩ | he | ⟨_, he⟩ | ⟨w, hb, he⟩ | ⟨v, he⟩ | he <;> rw [he]
  · exact h.frame _ _ _ _ _
  · exact h.raiseFault _
  · exact h.raiseFault _
  · exact h.acceptCommand w hb
  · exact h.frame _ _ _ _ _
  · exact h

/-- An answer to the outstanding request leaves the sequencer at the step that consumes it (10_state.md R45). -/
theorem BlockInv.answeredBy {s : State} {r : Request} {a : Option Answer} (h : BlockInv s)
    (ho : s.outstanding = some { request := r, answer := none }) (ha : ∀ x, a = some x → answerFits r x) (n : Nat) :
    BlockInv { s with outstanding := some { request := r, answer := a }, draws := n } :=
  { h with
    idle_quiet := fun hi => absurd (h.idle_quiet hi) (by simp [ho])
    positioned := fun op k l hp => by
      rcases h.positioned op k l hp with ⟨_, hn⟩ | ⟨hk, i, o, hd, ho', hr, _⟩
      · simp [ho] at hn
      · obtain rfl : { request := r, answer := none } = o := Option.some.inj (ho.symm.trans ho')
        exact .inr ⟨hk, i, _, hd, rfl, hr, ha⟩ }

/-- A command that issues a request moves on to the step that consumes its answer; what its prologue checked still
holds there (R23, R131, 70_reset_and_hazards.md R284, R285). -/
theorem BlockInv.issue {s : State} {op : BitVec 4} {k k' : Nat} {l l' : Locals} {i : Instr} {r : Request}
    (h : BlockInv s) (hp : s.phase = .exec op k l) (hd : decode s.curCmd = .ok i) (hlt : k < k') (hpos : k ≠ 0)
    (hr : expectedRequest s.params i k' = some r) (gate : k = 1 → s.initState = .ready ∨ isInit i = true)
    (quiet : k = 1 → (i = .start ∨ i = .measure) → s.convPending = false)
    (elapsed : k = 1 → i = .read → s.convPending = false ∨ convElapsed s = true)
    (held : ∀ d, i = .init d → (k = 1 → l'.offset = initOffset d s) ∧ (k ≠ 1 → l'.offset = l.offset)) :
    BlockInv (issue r k' l' s) := by
  have same : ∀ {j}, decode s.curCmd = .ok j → i = j := fun hj => Except.ok.inj (hd.symm.trans hj)
  exact
    { h with
      busy_iff := by simpa [hp] using h.busy_iff
      idle_quiet := fun hi => by cases hi
      phase_opcode := fun _ _ _ hp' => by cases hp'; rfl
      positioned := fun _ _ _ hp' => by
        cases hp'
        exact .inr ⟨by omega, i, _, hd, rfl, hr, by simp⟩
      past_gate := fun _ _ _ j _ _ hj hn => by
        obtain rfl := same hj
        by_cases hk : k = 1
        · simpa [hn] using gate hk
        · exact h.past_gate _ _ _ _ hp hk hj hn
      no_retrigger := fun _ _ _ j _ _ hj ht => by
        obtain rfl := same hj
        by_cases hk : k = 1
        · exact quiet hk ht
        · exact h.no_retrigger _ _ _ _ hp hk hj ht
      no_early_read := fun _ _ _ _ _ hj => by
        by_cases hk : k = 1
        · exact elapsed hk (same hj)
        · exact h.no_early_read _ _ _ hp hk hj
      offset_held := fun _ _ _ d hp' _ hj => by
        cases hp'
        obtain ⟨first, later⟩ := held d (same hj)
        by_cases hk : k = 1
        · exact first hk
        · exact (later hk).trans (h.offset_held _ _ _ _ hp hk hj) }

/-- A step of the running command keeps the invariant. -/
theorem BlockInv.exec {s t : State} {op : BitVec 4} {k : Nat} {l : Locals} {i : Instr} (h : BlockInv s)
    (hp : s.phase = .exec op k l) (hd : decode s.curCmd = .ok i) (ht : exec i s = .next t) : BlockInv t := by
  have hk := stepIndex_of_phase hp
  have hl := stepLocals_of_phase hp
  cases exec_progress ht with
  | finished e u _ hc =>
    refine blockInv_finish (hc.registers h.registers) fun he => ?_
    rw [hc.curCmd_eq, hd] at he
    cases he
  | issued r k' l' hlt hpos hr gate quiet elapsed held =>
    rw [hk] at hlt hpos gate quiet elapsed held
    rw [hl] at held
    exact h.issue hp hd hlt hpos hr gate quiet elapsed held
  | faulted f => exact h.raiseFault f

/-- Every agent's move keeps the invariant. -/
theorem BlockInv.moved {s t : State} {script : List Move} (h : BlockInv s) (hm : Moved s script t) : BlockInv t := by
  cases hm with
  | stayed => exact h
  | hosted a => exact h.hostAccess a
  | illegal => exact blockInv_finish h.registers fun _ => rfl
  | ran _ op k l hp i hd _ ht => exact h.exec hp hd ht
  | answeredBy r ho a ha n => exact h.answeredBy ho ha n
  | blockReset => exact blockInv_blockReset s

/-- Settles O54: a step is one agent's move from the state without that move in its script, and every move keeps the
invariant. -/
theorem everyStepKeepsTheInvariant : Obligations.EveryStepKeepsTheInvariant := by
  intro s t h hstep
  obtain ⟨_, hm⟩ := step_cases hstep
  exact h.popped.moved hm

end Sys2Proof.Machine
end

section
/-! PROOFS. No move from a state that meets the invariant is refused (log 10): at every step that `expectedRequest` gives a
command, an answer that fits the step's request lets the command go on. -/

namespace Sys2Proof.Machine

/-- The request `r` has been answered, and the answer is of its kind (10_state.md R45, 20_memory.md R63). -/
def Answered (s : State) (r : Request) : Prop :=
  ∃ a, s.outstanding = some { request := r, answer := some a } ∧ answerFits r a

/-- A step past the first, no answer awaited, finds the answer to its command's request. -/
theorem Positioned.answered {s : State} {k : Nat} {i : Instr} (h : Positioned s k) (hk : k ≠ 1)
    (hw : waiting s = false) (hd : decode s.curCmd = .ok i) :
    ∃ r, expectedRequest s.params i k = some r ∧ Answered s r := by
  rcases h with ⟨h1, _⟩ | ⟨_, j, ⟨r, a⟩, hj, ho, hr, hfit⟩
  · exact absurd h1 hk
  · obtain rfl : i = j := Except.ok.inj (hd.symm.trans hj)
    cases a with
    | none => exact absurd ((waiting_iff s).2 ⟨r, ho⟩) (by simp [hw])
    | some a => exact ⟨r, hr, a, ho, hfit a rfl⟩

/-! ## Consuming the answer there is -/

theorem onAck_next {s : State} {addr byte : Byte} {f : Bool → Result State} (h : Answered s (.busWrite addr byte))
    (hf : ∀ ok, ∃ t, f ok = .next t) : ∃ t, onAck s f = .next t := by
  obtain ⟨a, ho, hfit⟩ := h
  cases a with
  | ack ok => rw [onAck_eq f ho]; exact hf ok
  | data | done => cases hfit

theorem onData_next {s : State} {addr : Byte} {n : Nat} {f : Bool → List Byte → Result State}
    (h : Answered s (.busRead addr n)) (hf : ∀ ok bytes, ∃ t, f ok bytes = .next t) : ∃ t, onData s f = .next t := by
  obtain ⟨a, ho, hfit⟩ := h
  cases a with
  | data ok bytes => rw [onData_eq f ho]; exact hf ok bytes
  | ack | done => cases hfit

theorem onDone_next {s : State} {ms : BitVec 24} {x : Result State} (h : Answered s (.delay ms))
    (hx : ∃ t, x = .next t) : ∃ t, onDone s x = .next t := by
  obtain ⟨a, ho, hfit⟩ := h
  cases a with
  | done => rw [onDone_eq x ho]; exact hx
  | ack | data => cases hfit

/-! ## The subroutines -/

theorem identityFirst_next {s : State} (k : Nat) (failed : State) {addr : Byte} {n : Nat}
    (h : Answered s (.busRead addr n)) : ∃ t, identityFirst k s failed = .next t :=
  onData_next h fun ok _ => by cases ok <;> exact ⟨_, rfl⟩

theorem triggerIssue_next (j : Nat) (s : State) {done : Bool → Result State} (hd : ∀ ok, ∃ t, done ok = .next t) :
    ∃ t, triggerIssue j s done = .next t := by
  rcases triggerIssue_cases j s done with ⟨r, _, he⟩ | ⟨_, he⟩ <;> rw [he]
  · exact ⟨_, rfl⟩
  · exact hd true

theorem triggerRequest_write {p : Params} {j : Nat} {r : Request} (h : triggerRequest p j = some r) :
    ∃ addr byte, r = .busWrite addr byte := by
  obtain ⟨w, _, rfl⟩ := Option.map_eq_some_iff.1 h
  exact ⟨_, _, rfl⟩

theorem triggerStep_next {s : State} {j : Nat} {r : Request} {done : Bool → Result State}
    (hr : triggerRequest s.params j = some r) (h : Answered s r) (hd : ∀ ok, ∃ t, done ok = .next t) :
    ∃ t, triggerStep j s done = .next t := by
  obtain ⟨addr, byte, rfl⟩ := triggerRequest_write hr
  refine onAck_next h fun ok => ?_
  cases ok with
  | true => exact triggerIssue_next (j + 1) s hd
  | false => exact hd false

theorem readFirst_next {s : State} (base : Nat) (h : Answered s (firstReadRequest s.params)) :
    ∃ t, readFirst base s = .next t :=
  onData_next h fun ok bytes => by cases s.params.readMode <;> exact ⟨_, rfl⟩

theorem readSecond_next {s : State} {r : Request} (hr : secondReadRequest s.params = some r) (h : Answered s r) :
    ∃ t, readSecond s = .next t := by
  unfold secondReadRequest at hr
  unfold readSecond
  cases hm : s.params.readMode with
  | combined => simp [hm] at hr
  | split =>
    obtain rfl : _ = r := by simpa [hm] using hr
    exact onData_next h fun _ _ => ⟨_, rfl⟩

theorem startDone_next (s : State) (ok : Bool) : ∃ t, startDone s ok = .next t := ⟨_, rfl⟩

theorem measureTriggered_next (s : State) (ok : Bool) : ∃ t, measureTriggered s ok = .next t := ⟨_, rfl⟩

/-! ## The first step of a command -/

theorem conversion_first_next {s : State} (i : Instr) (u : ScaleUnit) (src : BitVec 2) (mult : BitVec 16)
    (hk : stepIndex s = 1) : ∃ t, conversion i u src mult s = .next t := by
  simp only [conversion, hk]
  exact prologue_next (by split <;> exact ⟨_, rfl⟩)

/-- Step 1 awaits no answer, so it always has a meaning (40_protocol.md R131). -/
theorem exec_first_next {s : State} (i : Instr) (hk : stepIndex s = 1) : ∃ t, exec i s = .next t := by
  cases i with
  | init d => simp only [exec, execInit, hk]; exact prologue_next ⟨_, rfl⟩
  | reset => simp only [exec, execReset, hk]; exact prologue_next ⟨_, rfl⟩
  | setlp e => simp only [exec, execSetlp, hk]; exact prologue_next ⟨_, rfl⟩
  | readid => simp only [exec, execReadid, hk]; exact prologue_next ⟨_, rfl⟩
  | start =>
    simp only [exec, execStart, hk]
    refine prologue_next ?_
    split
    · exact ⟨_, rfl⟩
    · exact triggerIssue_next 0 s (startDone_next s)
  | wait ms => simp only [exec, execWait, hk]; exact prologue_next ⟨_, rfl⟩
  | read =>
    simp only [exec, execRead, hk]
    exact prologue_next (by split <;> exact ⟨_, rfl⟩)
  | measure =>
    simp only [exec, execMeasure, hk]
    refine prologue_next ?_
    split
    · exact ⟨_, rfl⟩
    · exact triggerIssue_next 0 s (measureTriggered_next s)
  | validate => simp only [exec, execValidate, hk]; exact prologue_next ⟨_, rfl⟩
  | kelvin src mult => exact conversion_first_next _ _ src mult hk
  | celsius src mult => exact conversion_first_next _ _ src mult hk
  | fahrenheit src mult => exact conversion_first_next _ _ src mult hk
  | humidity src mult => exact conversion_first_next _ _ src mult hk

/-! ## The later steps, one lemma per command that makes requests -/

section
variable {s : State} {k : Nat} {r : Request} (hk : stepIndex s = k) (ha : Answered s r)
include hk ha

theorem execInit_next (d : Bool) (hr : initRequest s.params k = some r) : ∃ t, execInit d s = .next t := by
  unfold initRequest at hr
  split at hr
  case isTrue h2 =>
    obtain rfl := Option.some.inj hr
    simp only [execInit, hk, h2]
    refine onAck_next ha fun ok => ?_
    cases ok with
    | false => exact ⟨_, rfl⟩
    | true => rw [if_pos rfl]; split <;> exact ⟨_, rfl⟩
  split at hr
  case isTrue h3 =>
    split at hr
    case isFalse => cases hr
    obtain rfl := Option.some.inj hr
    simp only [execInit, hk, h3]
    exact onDone_next ha ⟨_, rfl⟩
  split at hr
  case isTrue h4 =>
    obtain rfl := Option.some.inj hr
    simp only [execInit, hk, h4]
    exact identityFirst_next 5 _ ha
  split at hr
  case isTrue h5 =>
    obtain rfl := Option.some.inj hr
    simp only [execInit, hk, h5]
    exact onData_next ha fun ok _ => by cases ok <;> exact ⟨_, rfl⟩
  case isFalse => cases hr

theorem execReadid_next (hr : readidRequest s.params k = some r) : ∃ t, execReadid s = .next t := by
  unfold readidRequest at hr
  split at hr
  case isTrue h2 =>
    obtain rfl := Option.some.inj hr
    simp only [execReadid, hk, h2]
    exact identityFirst_next 3 _ ha
  split at hr
  case isTrue h3 =>
    obtain rfl := Option.some.inj hr
    simp only [execReadid, hk, h3]
    exact onData_next ha fun _ _ => ⟨_, rfl⟩
  case isFalse => cases hr

theorem execRead_next (hr : readRequest s.params k = some r) : ∃ t, execRead s = .next t := by
  unfold readRequest at hr
  split at hr
  case isTrue h2 =>
    obtain rfl := Option.some.inj hr
    simp only [execRead, hk, h2]
    exact readFirst_next 1 ha
  split at hr
  case isTrue h3 =>
    simp only [execRead, hk, h3]
    exact readSecond_next hr ha
  case isFalse => cases hr

theorem execStart_next (h2 : 2 ≤ k) (hr : triggerRequest s.params (k - 2) = some r) : ∃ t, execStart s = .next t := by
  obtain ⟨j, rfl⟩ := Nat.exists_eq_add_of_le' h2
  rw [Nat.add_sub_cancel] at hr
  simp only [execStart, hk, triggerRequest_lt hr, if_true]
  exact triggerStep_next hr ha (startDone_next s)

theorem execMeasure_next (hr : measureRequest s.params k = some r) : ∃ t, execMeasure s = .next t := by
  unfold measureRequest at hr
  split at hr
  case isTrue => cases hr
  case isFalse h2 =>
  obtain ⟨j, rfl⟩ := Nat.exists_eq_add_of_le' (Nat.le_of_not_lt h2)
  simp only [execMeasure, hk]
  split at hr
  case isTrue hj =>
    rw [if_pos (by omega)]
    exact triggerStep_next hr ha (measureTriggered_next s)
  rw [if_neg (by omega)]
  split at hr
  case isTrue hj =>
    obtain rfl := Option.some.inj hr
    rw [if_pos (by omega)]
    exact onDone_next ha ⟨_, rfl⟩
  rw [if_neg (by omega)]
  split at hr
  case isTrue hj =>
    obtain rfl := Option.some.inj hr
    rw [if_pos (by omega)]
    exact readFirst_next _ ha
  rw [if_neg (by omega)]
  split at hr
  case isTrue hj =>
    rw [if_pos (by omega)]
    exact readSecond_next hr ha
  case isFalse => cases hr

/-- Every step that `expectedRequest` gives a command has a meaning once its request is answered. -/
theorem exec_later_next {i : Instr} (hr : expectedRequest s.params i k = some r) : ∃ t, exec i s = .next t := by
  cases i with
  | init d => exact execInit_next hk ha d hr
  | reset =>
    obtain ⟨h2, rfl⟩ : k = 2 ∧ _ = r := by simpa [expectedRequest] using hr
    simp only [exec, execReset, hk, h2]
    exact onAck_next ha fun _ => ⟨_, rfl⟩
  | setlp e =>
    obtain ⟨h2, rfl⟩ : k = 2 ∧ _ = r := by
      simpa only [expectedRequest, Option.ite_none_right_eq_some, Option.some.injEq] using hr
    simp only [exec, execSetlp, hk, h2]
    exact onAck_next ha fun _ => ⟨_, rfl⟩
  | readid => exact execReadid_next hk ha hr
  | start =>
    obtain ⟨h2, hr⟩ : ¬ k < 2 ∧ triggerRequest s.params (k - 2) = some r := by simpa [expectedRequest] using hr
    exact execStart_next hk ha (Nat.le_of_not_lt h2) hr
  | wait ms =>
    obtain ⟨h2, rfl⟩ : k = 2 ∧ _ = r := by simpa [expectedRequest] using hr
    simp only [exec, execWait, hk, h2]
    exact onDone_next ha ⟨_, rfl⟩
  | read => exact execRead_next hk ha hr
  | measure => exact execMeasure_next hk ha hr
  | validate | kelvin _ _ | celsius _ _ | fahrenheit _ _ | humidity _ _ => cases hr

end

/-! ## Every move -/

/-- In a state that meets the invariant, the running command's step has a meaning unless it awaits an answer. -/
theorem BlockInv.exec_next {s : State} {op : BitVec 4} {k : Nat} {l : Locals} {i : Instr} (h : BlockInv s)
    (hp : s.phase = .exec op k l) (hw : waiting s = false) (hd : decode s.curCmd = .ok i) :
    ∃ t, Machine.exec i s = .next t := by
  have hk := stepIndex_of_phase hp
  by_cases h1 : k = 1
  · exact exec_first_next i (hk.trans h1)
  · obtain ⟨r, hr, ha⟩ := (h.positioned op k l hp).answered h1 hw hd
    exact exec_later_next hk ha hr

theorem BlockInv.sequencerMove_next {s : State} (h : BlockInv s) : ∃ t, sequencerMove s = .next t := by
  rcases sequencerMove_cases s with he | ⟨_, _, _, he⟩ | ⟨hw, op, k, l, i, hp, hd, he⟩ <;> rw [he]
  · exact ⟨_, rfl⟩
  · exact ⟨_, rfl⟩
  · exact h.exec_next hp hw hd

theorem BlockInv.takeMove_next {s : State} (m : Move) (h : BlockInv s) : ∃ t, takeMove m s = .next t := by
  cases m with
  | sequencer => exact h.sequencerMove_next
  | host | bus | delayDone | blockReset => exact ⟨_, rfl⟩

theorem BlockInv.fairMove_next {s : State} (h : BlockInv s) : ∃ t, fairMove s = .next t := by
  unfold fairMove
  split
  · exact ⟨_, rfl⟩
  · exact h.sequencerMove_next

/-- A block without a fault goes on from every state that meets the invariant. -/
theorem BlockInv.step_next {s : State} (h : BlockInv s) (hf : s.faulted = none) : ∃ t, step s = .next t := by
  cases hs : s.script with
  | nil => rw [step_script_nil hf hs]; exact h.fairMove_next
  | cons m rest =>
    rw [step_script_cons hf hs]
    exact (h.frame s.arg0 s.faulted rest s.draws s.readData).takeMove_next m

/-- Settles O55: a faulted block answers its fault, and any other goes on. -/
theorem invariantStatesAreNeverRefused : Obligations.InvariantStatesAreNeverRefused := by
  intro s r h hr
  cases hf : s.faulted with
  | some f => rw [step_faulted hf] at hr; cases hr
  | none =>
    obtain ⟨t, ht⟩ := h.step_next hf
    rw [ht] at hr
    cases hr

end Sys2Proof.Machine
end

section
/-! PROOFS. What a command's step writes and leaves alone, the fields of `CTRL_STAT`, and the moves of the answering
agents and of the sequencer. -/

namespace Sys2Proof.Machine

/-! ## The sequencer's step -/

theorem waiting_eq_false {s : State} (h : ∀ r, s.outstanding ≠ some { request := r, answer := none }) :
    waiting s = false := by
  rw [← Bool.not_eq_true, waiting_iff]
  rintro ⟨r, ho⟩
  exact h r ho

/-- With the script used up and no answer awaited, the sequencer moves (70_reset_and_hazards.md R293; log 2). -/
theorem fairMove_of_not_waiting {s : State} (hw : waiting s = false) : fairMove s = sequencerMove s := by
  simp [fairMove, hw]

/-- Settles O7: both the scripted and the unscripted move are the sequencer's, which runs the decoded command. -/
theorem stepRunsTheDecodedCommand : Obligations.StepRunsTheDecodedCommand := by
  intro s i op k l hf hp ho hd
  have hw := waiting_eq_false ho
  constructor
  · intro rest hs
    rw [step_script_cons hf hs]
    exact sequencerMove_run hp hw hd
  · intro hs
    rw [step_script_nil hf hs, fairMove_of_not_waiting hw]
    exact sequencerMove_run hp hw hd

/-! ## A block that is not ready -/

/-- At step 1 the meaning of each command is its prologue, and the prologue's first check refuses every command but `INIT`
in a block that is not `READY` (10_state.md R38, 60_exceptions.md R253). -/
theorem exec_notReady {s : State} {i : Instr} (hk : stepIndex s = 1) (hr : s.initState ≠ .ready)
    (hi : isInit i = false) : exec i s = .next (finish .notReady s) := by
  have refuses : ∀ body, prologue i s body = .next (finish .notReady s) := fun body => prologue_notReady body hr hi
  cases i with
  | init d => cases hi
  | reset => simp only [exec, execReset, hk, refuses]
  | setlp e => simp only [exec, execSetlp, hk, refuses]
  | readid => simp only [exec, execReadid, hk, refuses]
  | start => simp only [exec, execStart, hk, refuses]
  | wait ms => simp only [exec, execWait, hk, refuses]
  | read => simp only [exec, execRead, hk, refuses]
  | measure => simp only [exec, execMeasure, hk, refuses]
  | validate => simp only [exec, execValidate, hk, refuses]
  | kelvin src mult => simp only [exec, execKelvin, conversion, hk, refuses]
  | celsius src mult => simp only [exec, execCelsius, conversion, hk, refuses]
  | fahrenheit src mult => simp only [exec, execFahrenheit, conversion, hk, refuses]
  | humidity src mult => simp only [exec, execHumidity, conversion, hk, refuses]

theorem not_init_iff {i : Instr} : (∀ d, i ≠ .init d) ↔ isInit i = false := by
  cases i with
  | init d => exact ⟨fun h => absurd rfl (h d), fun h => by cases h⟩
  | reset | setlp _ | readid | start | wait _ | read | measure | validate => simp [isInit]
  | kelvin _ _ | celsius _ _ | fahrenheit _ _ | humidity _ _ => simp [isInit]

/-- Settles O11: step 1 of every other command is its prologue, which refuses before it looks at the operands. -/
theorem unreadyBlockRefusesEveryCommandButInit : Obligations.UnreadyBlockRefusesEveryCommandButInit :=
  fun _ _ _ hat hr hi => exec_notReady hat.stepIndex_eq hr (not_init_iff.1 hi)

/-! ## `CTRL_STAT` -/

/-- Settles O41: bit by bit, each field is read where the concatenation of R36 puts it. -/
theorem controlStatusHoldsItsFields : Obligations.ControlStatusHoldsItsFields := by
  intro s
  refine ⟨?busy, ?initState, ?convPending, ?convElapsed, ?reserved, ?lastOpc, ?cmdErr, ?reservedHigh⟩ <;>
  · ext i hi
    simp only [BitVec.getElem_extractLsb', ctrlStat, BitVec.getLsbD_append, convElapsed]
    interval_cases i <;> simp

/-! ## The answering agents -/

/-- The move `m` is an agent's answer, `f` giving its answer to each request. -/
def Answering (m : Move) (f : Request → Option Answer) : Prop := ∀ s, takeMove m s = .next (answerWith f s)

theorem answering_bus (ok : Bool) (bytes : List Byte) : Answering (.bus ok bytes) fun r => busAnswer r ok bytes :=
  fun _ => rfl

theorem answering_delayDone : Answering .delayDone delayAnswer := fun _ => rfl

section
variable {s : State} {m : Move} {f : Request → Option Answer} {rest : List Move} {r : Request}
  (hm : Answering m f) (hf : s.faulted = none) (hs : s.script = m :: rest)
include hm hf hs

theorem step_answering : step s = .next (answerWith f { s with script := rest }) := by
  rw [step_script_cons hf hs, hm]

/-- The answer is recorded beside the request (10_state.md R45). -/
theorem step_answer_recorded {a : Answer} (ho : s.outstanding = some { request := r, answer := none })
    (ha : f r = some a) :
    step s = .next { s with script := rest, outstanding := some { request := r, answer := some a } } := by
  rw [step_answering hm hf hs]
  simp only [answerWith, ho, ha]

/-- A move that is no answer to the request changes nothing (log 8). -/
theorem step_answer_unfit (ho : s.outstanding = some { request := r, answer := none }) (ha : f r = none) :
    step s = .next { s with script := rest } := by
  rw [step_answering hm hf hs]
  simp only [answerWith, ho, ha]

/-- A request is answered once (log 8). -/
theorem step_answer_again {a : Answer} (ho : s.outstanding = some { request := r, answer := some a }) :
    step s = .next { s with script := rest } := by
  rw [step_answering hm hf hs]
  simp only [answerWith, ho]

end

theorem delayAnswer_eq_none {r : Request} (h : ∀ ms, r ≠ .delay ms) : delayAnswer r = none := by
  cases r with
  | delay ms => exact absurd rfl (h ms)
  | busWrite _ _ | busRead _ _ => rfl

/-- Settles O57: an answer of the right kind is recorded beside its request, any other is discarded. -/
theorem answersAreRecorded : Obligations.AnswersAreRecorded := by
  intro s rest hf
  refine ⟨?write, ?read, ?delay, ?wrongLength, ?busToDelay, ?delayToBus, ?again⟩
  case write => exact fun a v ok bytes ho hs => step_answer_recorded (answering_bus ok bytes) hf hs ho rfl
  case read => exact fun a n ok bytes ho hs hn => step_answer_recorded (answering_bus ok bytes) hf hs ho (if_pos hn)
  case delay => exact fun ms ho hs => step_answer_recorded answering_delayDone hf hs ho rfl
  case wrongLength => exact fun a n ok bytes ho hs hn => step_answer_unfit (answering_bus ok bytes) hf hs ho (if_neg hn)
  case busToDelay => exact fun ms ok bytes ho hs => step_answer_unfit (answering_bus ok bytes) hf hs ho rfl
  case delayToBus => exact fun r hr ho hs => step_answer_unfit answering_delayDone hf hs ho (delayAnswer_eq_none hr)
  case again =>
    rintro r a ok bytes ho (hs | hs)
    · exact step_answer_again (answering_bus ok bytes) hf hs ho
    · exact step_answer_again answering_delayDone hf hs ho

/-! ## Frames -/

/-- Settles O42: no commit group, request or fault writes the operands or what is not the block's. -/
theorem commandsLeaveOperandsAndSurroundingsAlone : Obligations.CommandsLeaveOperandsAndSurroundingsAlone := by
  intro i s t h
  cases exec_progress h with
  | finished e u _ hc => cases hc <;> simp
  | issued => simp
  | faulted => simp

/-- Settles O43: each commit group writes the registers of its own command only, and issuing a request or raising a
fault writes none. -/
theorem registersAreWrittenByTheirCommandsOnly : Obligations.RegistersAreWrittenByTheirCommandsOnly := by
  intro i s t h
  simp only [not_init_iff]
  cases exec_progress h with
  | issued => simp
  | faulted => simp
  | finished e u _ hc =>
    cases hc with
    | nothing => simp
    | initWriteFailed hi => simp [hi]
    | initReadFailed hi => simp [hi]
    | initMismatched hi => simp [hi]
    | initialized hi => simp [hi]
    | cleared _ hi => rcases hi with rfl | rfl <;> simp
    | identified hi => subst hi; simp
    | begun hi => subst hi; simp
    | waited ms hi => subst hi; simp
    | readings _ hi => rcases hi with rfl | rfl <;> simp
    | triggerFailed hi => subst hi; simp
    | validated hi => subst hi; simp
    | converted hi => obtain ⟨src, mult, rfl | rfl | rfl | rfl⟩ := hi <;> simp

/-- A commit group that changes the calibration offset is that of an `INIT` which succeeded (10_state.md R32). -/
theorem Commits.of_calOffset_ne {i : Instr} {s u : State} {e : CmdErr} (hc : Commits i s e u)
    (h : u.calOffset ≠ s.calOffset) : isInit i = true ∧ e = .none ∧ u.initState = .ready := by
  cases hc with
  | initialized hi => exact ⟨hi, rfl, rfl⟩
  | waited => exact absurd (commitWait_calOffset _ _) h
  | _ => exact absurd rfl h

theorem exists_init_of_isInit {i : Instr} (h : isInit i = true) : ∃ d, i = .init d := by
  by_contra hn
  rw [not_init_iff.1 (not_exists.1 hn)] at h
  cases h

theorem hostAccess_calOffset (a : HostAccess) (s : State) : (hostAccess a s).calOffset = s.calOffset := by
  rcases hostAccess_cases a s with ⟨v, he⟩ | he | ⟨_, he⟩ | ⟨w, _, he⟩ | ⟨v, he⟩ | he <;> rw [he] <;> rfl

/-- A step of a command that changes the calibration offset is an `INIT`'s last, and it succeeded. -/
theorem exec_of_calOffset_ne {i : Instr} {s t : State} (ht : exec i s = .next t) (h : t.calOffset ≠ s.calOffset) :
    isInit i = true ∧ t.initState = .ready ∧ t.cmdErr = .none ∧ t.busy = false := by
  cases exec_progress ht with
  | finished e u _ hc =>
    obtain ⟨hi, rfl, hr⟩ := hc.of_calOffset_ne h
    exact ⟨hi, hr, rfl, rfl⟩
  | issued => exact absurd rfl h
  | faulted => exact absurd rfl h

/-- Settles O45: of all moves only block reset and a command's step can change the calibration offset. -/
theorem onlySuccessfulInitWritesTheOffset : Obligations.OnlySuccessfulInitWritesTheOffset := by
  intro s t hstep h
  obtain ⟨_, hm⟩ := step_cases hstep
  cases hm with
  | stayed => exact absurd rfl h
  | hosted a => exact absurd (hostAccess_calOffset a _) h
  | illegal => exact absurd rfl h
  | answeredBy => exact absurd rfl h
  | blockReset rest hs => exact .inl ⟨rest, hs⟩
  | ran _ op k l hp i hd _ ht =>
    obtain ⟨hi, hready, herr, hbusy⟩ := exec_of_calOffset_ne ht h
    obtain ⟨d, rfl⟩ := exists_init_of_isInit hi
    exact .inr ⟨d, hd, hready, herr, hbusy⟩

end Sys2Proof.Machine
end

section
/-! PROOFS. The host register space (20_memory.md): the byte order of reads, the address map, what each host access does,
what a step of a running command shows the host, and that a running command does not see `ARG0`. -/

namespace Sys2Proof.Machine

/-! ## Bytes -/

/-- Settles O29: by induction on the bytes, a further first byte moves every other one up by 8 bits. -/
theorem readBytesAssembleLittleEndian : Obligations.ReadBytesAssembleLittleEndian := by
  intro bytes
  induction bytes with
  | nil => rfl
  | cons b bs ih =>
    have shift : ∀ i : Nat, 2 ^ (8 * (i + 1)) = 256 * 2 ^ (8 * i) := fun i => by
      rw [Nat.mul_succ, pow_add, mul_comm]
      rfl
    calc le (b :: bs)
        = b.toNat + 256 * ∑ i : Fin bs.length, (bs.get i).toNat * 2 ^ (8 * (i : Nat)) := by rw [le, ih]
      _ = b.toNat + ∑ i : Fin bs.length, (bs.get i).toNat * 2 ^ (8 * ((i : Nat) + 1)) := by
          simp only [shift, Finset.mul_sum, mul_left_comm]
      _ = ∑ i : Fin (b :: bs).length, ((b :: bs).get i).toNat * 2 ^ (8 * (i : Nat)) := by
          simp [Fin.sum_univ_succ]

/-! ## The address map -/

theorem regAt_regOffset (r : HostReg) : regAt (regOffset r) = some r := by
  cases r <;> rfl

/-- The offset of the register found at an offset is that offset (20_memory.md R61). -/
theorem regAt_eq_some_iff (off : BitVec 6) (r : HostReg) : regAt off = some r ↔ off = regOffset r := by
  constructor
  · intro h
    unfold regAt at h
    split at h <;> cases h <;> exact BitVec.eq_of_toNat_eq ‹_›
  · rintro rfl
    exact regAt_regOffset r

/-- Settles O39: the map is the definition of `regOffset`, and `regAt` is its inverse. -/
theorem hostRegistersStandAtTheirOffsets : Obligations.HostRegistersStandAtTheirOffsets :=
  ⟨rfl, rfl, rfl, rfl, rfl, rfl, rfl, rfl, rfl, rfl, rfl, rfl, rfl, regAt_eq_some_iff⟩

/-- The map's 13 registers are aligned words from offset 0 on. -/
theorem regOffset_aligned (r : HostReg) : (regOffset r).toNat % 4 = 0 ∧ (regOffset r).toNat < 0x34 := by
  cases r <;> decide

/-! ## Host accesses -/

/-- An access of another width, unaligned or past the map is a fault (20_memory.md R62, 60_exceptions.md R258). -/
theorem hostAccess_refused {off : BitVec 6} {width : Nat} (s : State)
    (h : off.toNat % 4 ≠ 0 ∨ 0x34 ≤ off.toNat ∨ width ≠ 32) :
    hostAccess (.read off width) s = raiseFault .hostAccess s ∧
      ∀ v, hostAccess (.write off width v) s = raiseFault .hostAccess s := by
  cases hr : regAt off with
  | none => simp [hostAccess, hr]
  | some r =>
    obtain rfl := (regAt_eq_some_iff off r).1 hr
    have hmap := regOffset_aligned r
    have hw : width ≠ 32 := by omega
    simp [hostAccess, hr, hw]

theorem writeReg_readOnly {r : HostReg} (v : Word) (s : State) (hc : r ≠ .cmd) (ha : r ≠ .arg0) :
    writeReg r v s = s := by
  rcases writeReg_cases r v s with ⟨h, _⟩ | ⟨h, _⟩ | ⟨h, _⟩ | ⟨_, _, h⟩
  · exact absurd h hc
  · exact absurd h hc
  · exact absurd h ha
  · exact h

theorem writeReg_cmd_idle {s : State} (w : Word) (hb : s.busy = false) : writeReg .cmd w s = acceptCommand w s := by
  simp [writeReg, offerCommand, hb]

theorem writeReg_cmd_busy {s : State} (w : Word) (hb : s.busy = true) :
    writeReg .cmd w s = raiseFault .cmdWhileBusy s := by
  simp [writeReg, offerCommand, hb]

section
variable {s : State} {rest : List Move} (hf : s.faulted = none)
include hf

theorem step_host {a : HostAccess} (hs : s.script = .host a :: rest) :
    step s = .next (hostAccess a { s with script := rest }) :=
  step_script_cons hf hs

theorem step_host_read {r : HostReg} (hs : s.script = .host (.read (regOffset r) 32) :: rest) :
    step s = .next { s with script := rest, readData := some (readReg s r) } := by
  rw [step_host hf hs, hostAccess_read _ (regAt_regOffset r)]
  rfl

theorem step_host_write {r : HostReg} {v : Word} (hs : s.script = .host (.write (regOffset r) 32 v) :: rest) :
    step s = .next (writeReg r v { s with script := rest }) := by
  rw [step_host hf hs, hostAccess_write v _ (regAt_regOffset r)]

end

/-- Settles O40: a step that the script gives to the host is its access, and each kind of access has its equation. -/
theorem hostAccessesFollowTheirRules : Obligations.HostAccessesFollowTheirRules := by
  intro s rest hf
  refine ⟨?read, rfl, rfl, rfl, rfl, rfl, rfl, rfl, rfl, rfl, rfl, rfl, rfl, rfl, ?arg0, ?accepted, ?busy, ?readOnly,
    ?readRefused, ?writeRefused⟩
  case read => exact fun r hs => step_host_read hf hs
  case arg0 => exact fun v hs => step_host_write hf hs
  case accepted => exact fun w hs hb => (step_host_write hf hs).trans (congrArg _ (writeReg_cmd_idle w hb))
  case busy => exact fun w hs hb => (step_host_write hf hs).trans (congrArg _ (writeReg_cmd_busy w hb))
  case readOnly => exact fun r v hc ha hs => (step_host_write hf hs).trans (congrArg _ (writeReg_readOnly v _ hc ha))
  case readRefused => exact fun off width h hs => (step_host hf hs).trans (congrArg _ (hostAccess_refused _ h).1)
  case writeRefused => exact fun off width v h hs => (step_host hf hs).trans (congrArg _ ((hostAccess_refused _ h).2 v))

/-! ## While a command runs -/

/-- Only a host write to `ARG0` changes it (10_state.md R25). -/
theorem hostAccess_arg0 (a : HostAccess) (s : State) :
    (hostAccess a s).arg0 = s.arg0 ∨ ∃ v, a = .write (regOffset .arg0) 32 v ∧ (hostAccess a s).arg0 = v := by
  cases a with
  | read off width =>
    simp only [hostAccess]
    split
    · split <;> exact .inl rfl
    · exact .inl rfl
  | write off width v =>
    cases hr : regAt off with
    | none => simp [hostAccess, hr]
    | some r =>
      obtain rfl := (regAt_eq_some_iff off r).1 hr
      by_cases hw : width = 32
      · subst hw
        rw [hostAccess_write v s hr]
        rcases writeReg_cases r v s with ⟨_, _, h⟩ | ⟨_, _, h⟩ | ⟨rfl, h⟩ | ⟨_, _, h⟩ <;> rw [h]
        · exact .inl rfl
        · exact .inl rfl
        · exact .inr ⟨v, rfl, rfl⟩
        · exact .inl rfl
      · simp [hostAccess, hr, hw]

/-- No register but `ARG0` shows anything of `ARG0`, the sequencer, a recorded fault, or the model's own fields. -/
theorem readReg_frame {r : HostReg} (hr : r ≠ .arg0) (s : State) (arg0 : Word) (phase : Phase)
    (outstanding : Option Outstanding) (faulted : Option Fault) (script : List Move) (draws : Nat)
    (readData : Option Word) :
    readReg { s with arg0 := arg0, phase := phase, outstanding := outstanding, faulted := faulted, script := script,
                     draws := draws, readData := readData } r = readReg s r := by
  cases r with
  | arg0 => exact absurd rfl hr
  | _ => rfl

/-- No host access to a busy block changes what the host reads, but for `ARG0` (70_reset_and_hazards.md R287). -/
theorem readReg_hostAccess {r : HostReg} (hr : r ≠ .arg0) (a : HostAccess) {s : State} (hb : s.busy = true) :
    readReg (hostAccess a s) r = readReg s r := by
  rcases hostAccess_cases a s with ⟨v, h⟩ | h | ⟨_, h⟩ | ⟨w, hn, _⟩ | ⟨v, h⟩ | h
  · rw [h]; exact readReg_frame hr ..
  · rw [h]; exact readReg_frame hr ..
  · rw [h]; exact readReg_frame hr ..
  · rw [hb] at hn; cases hn
  · rw [h]; exact readReg_frame hr ..
  · rw [h]

/-- A command's step that does not end it only issues a request or raises a fault, and neither is seen by the host. -/
theorem exec_running {i : Instr} {s t : State} (ht : exec i s = .next t) (hb : t.busy = true) :
    (∀ r, r ≠ .arg0 → readReg t r = readReg s r) ∧ t.arg0 = s.arg0 := by
  cases exec_progress ht with
  | finished => cases hb
  | issued => exact ⟨fun _ hr => readReg_frame hr .., rfl⟩
  | faulted => exact ⟨fun _ hr => readReg_frame hr .., rfl⟩

/-- Settles O44: a move that leaves the command running is the host's, an answer, or a step that only issues a request
or raises a fault. -/
theorem runningCommandsShowNoResults : Obligations.RunningCommandsShowNoResults := by
  intro s t hstep hs ht
  obtain ⟨_, hm⟩ := step_cases hstep
  have hpop : ∀ r, r ≠ .arg0 → readReg (popped s) r = readReg s r := fun _ hr => readReg_frame hr ..
  cases hm with
  | stayed => exact ⟨hpop, .inl rfl⟩
  | hosted a rest hscript =>
    refine ⟨fun r hr => (readReg_hostAccess hr a (s := popped s) hs).trans (hpop r hr), ?_⟩
    rcases hostAccess_arg0 a (popped s) with h | ⟨v, rfl, h⟩
    · exact .inl h
    · exact .inr ⟨v, rest, hscript, h⟩
  | illegal => cases ht
  | ran _ op k l hp i hd _ hexec =>
    obtain ⟨hregs, harg⟩ := exec_running hexec ht
    exact ⟨fun r hr => (hregs r hr).trans (hpop r hr), .inl harg⟩
  | answeredBy => exact ⟨fun _ hr => readReg_frame hr .., .inl rfl⟩
  | blockReset => cases ht

/-! ## A running command does not see `ARG0` -/

/-- The state with another word in `ARG0`. -/
def setArg0 (v : Word) (s : State) : State := { s with arg0 := v }

/-- A result with its next state changed by `g`; a fault or a refusal is kept. -/
def mapNext (g : State → State) : Result State → Result State
  | .next t => .next (g t)
  | .fault f => .fault f
  | .refused r => .refused r

section
variable (v : Word) (s : State)

@[simp] theorem setArg0_stepIndex : stepIndex (setArg0 v s) = stepIndex s := rfl
@[simp] theorem setArg0_outstanding : (setArg0 v s).outstanding = s.outstanding := rfl
@[simp] theorem setArg0_params : (setArg0 v s).params = s.params := rfl
@[simp] theorem setArg0_rawSource (src : BitVec 2) : rawSource src (setArg0 v s) = rawSource src s := rfl

end

/-! ### The shared operations -/

/-- Two branches that `g` relates one by one are related by it whichever is taken. -/
theorem ite_eq_apply {α : Type} {g : α → α} {c : Prop} [Decidable c] {x x' y y' : α} (hx : x' = g x)
    (hy : y' = g y) : (if c then x' else y') = g (if c then x else y) := by
  rw [hx, hy, apply_ite g]

section
variable {v : Word} {s : State}

theorem prologue_setArg0 {i : Instr} {body body' : Result State} (h : body' = mapNext (setArg0 v) body) :
    prologue i (setArg0 v s) body' = mapNext (setArg0 v) (prologue i s body) := by
  unfold prologue
  exact ite_eq_apply rfl (ite_eq_apply rfl h)

theorem onAck_setArg0 {f f' : Bool → Result State} (h : ∀ ok, f' ok = mapNext (setArg0 v) (f ok)) :
    onAck (setArg0 v s) f' = mapNext (setArg0 v) (onAck s f) := by
  simp only [onAck, setArg0_outstanding, h]
  split <;> rfl

theorem onData_setArg0 {f f' : Bool → List Byte → Result State}
    (h : ∀ ok bytes, f' ok bytes = mapNext (setArg0 v) (f ok bytes)) :
    onData (setArg0 v s) f' = mapNext (setArg0 v) (onData s f) := by
  simp only [onData, setArg0_outstanding, h]
  split <;> rfl

theorem onDone_setArg0 {x x' : Result State} (h : x' = mapNext (setArg0 v) x) :
    onDone (setArg0 v s) x' = mapNext (setArg0 v) (onDone s x) := by
  simp only [onDone, setArg0_outstanding, h]
  split <;> rfl

theorem identityFirst_setArg0 (k : Nat) {failed failed' : State} (h : failed' = setArg0 v failed) :
    identityFirst k (setArg0 v s) failed' = mapNext (setArg0 v) (identityFirst k s failed) :=
  onData_setArg0 fun _ _ => ite_eq_apply rfl (congrArg _ h)

theorem triggerIssue_setArg0 (j : Nat) {done done' : Bool → Result State}
    (h : ∀ ok, done' ok = mapNext (setArg0 v) (done ok)) :
    triggerIssue j (setArg0 v s) done' = mapNext (setArg0 v) (triggerIssue j s done) := by
  simp only [triggerIssue, setArg0_params, h]
  split <;> rfl

theorem triggerStep_setArg0 (j : Nat) {done done' : Bool → Result State}
    (h : ∀ ok, done' ok = mapNext (setArg0 v) (done ok)) :
    triggerStep j (setArg0 v s) done' = mapNext (setArg0 v) (triggerStep j s done) :=
  onAck_setArg0 fun _ => ite_eq_apply (triggerIssue_setArg0 (j + 1) h) (h false)

theorem readIssue_setArg0 (base : Nat) : readIssue base (setArg0 v s) = setArg0 v (readIssue base s) := by
  simp only [readIssue_eq]
  rfl

theorem readFirst_setArg0 (base : Nat) : readFirst base (setArg0 v s) = mapNext (setArg0 v) (readFirst base s) := by
  refine onData_setArg0 fun ok bytes => ?_
  simp only [setArg0_params]
  split <;> rfl

theorem readSecond_setArg0 : readSecond (setArg0 v s) = mapNext (setArg0 v) (readSecond s) := by
  simp only [readSecond, setArg0_params]
  split
  · exact onData_setArg0 fun _ _ => rfl
  · rfl

theorem finishInit_setArg0 (pid : BitVec 16) (uid : BitVec 64) :
    finishInit pid uid (setArg0 v s) = setArg0 v (finishInit pid uid s) := by
  unfold finishInit
  exact ite_eq_apply rfl rfl

theorem commitWait_setArg0 (ms : BitVec 24) : commitWait ms (setArg0 v s) = setArg0 v (commitWait ms s) := by
  unfold commitWait
  exact ite_eq_apply rfl rfl

theorem startDone_setArg0 (ok : Bool) : startDone (setArg0 v s) ok = mapNext (setArg0 v) (startDone s ok) := by
  cases ok <;> rfl

theorem measureTriggered_setArg0 (ok : Bool) :
    measureTriggered (setArg0 v s) ok = mapNext (setArg0 v) (measureTriggered s ok) := by
  cases ok <;> rfl

theorem finishConverted_setArg0 (r : Int) : finishConverted r (setArg0 v s) = setArg0 v (finishConverted r s) := by
  unfold finishConverted
  exact ite_eq_apply rfl rfl

/-! ### The commands -/

theorem execInit_setArg0 (d : Bool) : execInit d (setArg0 v s) = mapNext (setArg0 v) (execInit d s) := by
  simp only [execInit, setArg0_stepIndex]
  split
  · exact prologue_setArg0 rfl
  · exact onAck_setArg0 fun _ => ite_eq_apply (ite_eq_apply rfl rfl) rfl
  · exact onDone_setArg0 rfl
  · exact identityFirst_setArg0 5 rfl
  · exact onData_setArg0 fun _ _ => ite_eq_apply (congrArg _ (finishInit_setArg0 _ _)) rfl
  · rfl

theorem execReset_setArg0 : execReset (setArg0 v s) = mapNext (setArg0 v) (execReset s) := by
  simp only [execReset, setArg0_stepIndex]
  split
  · exact prologue_setArg0 rfl
  · exact onAck_setArg0 fun ok => by cases ok <;> rfl
  · rfl

theorem execSetlp_setArg0 (e : Bool) : execSetlp e (setArg0 v s) = mapNext (setArg0 v) (execSetlp e s) := by
  simp only [execSetlp, setArg0_stepIndex]
  split
  · exact prologue_setArg0 rfl
  · exact onAck_setArg0 fun _ => rfl
  · rfl

theorem execReadid_setArg0 : execReadid (setArg0 v s) = mapNext (setArg0 v) (execReadid s) := by
  simp only [execReadid, setArg0_stepIndex]
  split
  · exact prologue_setArg0 rfl
  · exact identityFirst_setArg0 3 rfl
  · exact onData_setArg0 fun ok _ => by cases ok <;> rfl
  · rfl

theorem execStart_setArg0 : execStart (setArg0 v s) = mapNext (setArg0 v) (execStart s) := by
  simp only [execStart, setArg0_stepIndex]
  split
  · rfl
  · exact prologue_setArg0 (ite_eq_apply rfl (triggerIssue_setArg0 0 startDone_setArg0))
  · exact ite_eq_apply (triggerStep_setArg0 _ startDone_setArg0) rfl

theorem execWait_setArg0 (ms : BitVec 24) : execWait ms (setArg0 v s) = mapNext (setArg0 v) (execWait ms s) := by
  simp only [execWait, setArg0_stepIndex]
  split
  · exact prologue_setArg0 rfl
  · exact onDone_setArg0 (by rw [commitWait_setArg0]; rfl)
  · rfl

theorem execRead_setArg0 : execRead (setArg0 v s) = mapNext (setArg0 v) (execRead s) := by
  simp only [execRead, setArg0_stepIndex]
  split
  · exact prologue_setArg0 (ite_eq_apply rfl (congrArg _ (readIssue_setArg0 1)))
  · exact readFirst_setArg0 1
  · exact readSecond_setArg0
  · rfl

theorem execMeasure_setArg0 : execMeasure (setArg0 v s) = mapNext (setArg0 v) (execMeasure s) := by
  simp only [execMeasure, setArg0_stepIndex]
  split
  · rfl
  · exact prologue_setArg0 (ite_eq_apply rfl (triggerIssue_setArg0 0 measureTriggered_setArg0))
  · refine ite_eq_apply ?trigger (ite_eq_apply ?delay (ite_eq_apply ?first (ite_eq_apply ?second rfl)))
    case trigger => exact triggerStep_setArg0 _ measureTriggered_setArg0
    case delay => exact onDone_setArg0 (congrArg _ (readIssue_setArg0 _))
    case first => exact readFirst_setArg0 _
    case second => exact readSecond_setArg0

theorem execValidate_setArg0 : execValidate (setArg0 v s) = mapNext (setArg0 v) (execValidate s) := by
  simp only [execValidate, setArg0_stepIndex]
  split
  · exact prologue_setArg0 rfl
  · rfl

/-- A conversion takes its operand from what was latched at acceptance or from the data registers (42_converter.md
R216). -/
theorem conversion_setArg0 (i : Instr) (u : ScaleUnit) (src : BitVec 2) (mult : BitVec 16) :
    conversion i u src mult (setArg0 v s) = mapNext (setArg0 v) (conversion i u src mult s) := by
  simp only [conversion, setArg0_stepIndex, setArg0_rawSource]
  split
  · refine prologue_setArg0 ?_
    split
    · exact congrArg _ (finishConverted_setArg0 _)
    · rfl
  · rfl

theorem exec_setArg0 (i : Instr) (v : Word) (s : State) :
    exec i (setArg0 v s) = mapNext (setArg0 v) (exec i s) := by
  cases i with
  | init d => exact execInit_setArg0 d
  | reset => exact execReset_setArg0
  | setlp e => exact execSetlp_setArg0 e
  | readid => exact execReadid_setArg0
  | start => exact execStart_setArg0
  | wait ms => exact execWait_setArg0 ms
  | read => exact execRead_setArg0
  | measure => exact execMeasure_setArg0
  | validate => exact execValidate_setArg0
  | kelvin src mult => exact conversion_setArg0 _ _ src mult
  | celsius src mult => exact conversion_setArg0 _ _ src mult
  | fahrenheit src mult => exact conversion_setArg0 _ _ src mult
  | humidity src mult => exact conversion_setArg0 _ _ src mult

end

/-- Settles O47: every operation a command is made of reads the same in a state with another `ARG0`, and carries that
`ARG0` along. -/
theorem runningCommandIgnoresArg0 : Obligations.RunningCommandIgnoresArg0 := fun i s v =>
  (exec_setArg0 i v s).trans (by cases exec i s <;> rfl)

end Sys2Proof.Machine
end

section
/-! PROOFS. The decoder, the encoder, the opcode map and the lines of a host program agree (30_encoding.md R90
to R103), and the numbers of the codes. -/

namespace Sys2Proof

/-! ## The fields of a word -/

theorem append_eq_append_iff {m n : Nat} {x x' : BitVec m} {y y' : BitVec n} :
    x ++ y = x' ++ y' ↔ x = x' ∧ y = y' := by
  constructor
  · intro h
    have hx := congrArg (BitVec.extractLsb' n m) h
    have hy := congrArg (BitVec.extractLsb' 0 n) h
    rw [BitVec.extractLsb'_append_eq_left, BitVec.extractLsb'_append_eq_left] at hx
    rw [BitVec.extractLsb'_append_eq_right, BitVec.extractLsb'_append_eq_right] at hy
    exact ⟨hx, hy⟩
  · rintro ⟨rfl, rfl⟩
    rfl

/-- Two adjacent fields of a word are the field over both. -/
theorem extractLsb'_append_adjacent (w : Word) (start low high : Nat) :
    w.extractLsb' (start + low) high ++ w.extractLsb' start low = w.extractLsb' start (high + low) :=
  BitVec.extractLsb'_append_extractLsb'_eq_extractLsb' rfl

theorem ofBool_getLsbD (w : Word) (n : Nat) : BitVec.ofBool (w.getLsbD n) = w.extractLsb' n 1 := by
  ext i hi
  obtain rfl : i = 0 := by omega
  simp

/-! Each format as a word: `w` is the word of given operands and opcode exactly when each of its fields is (R91 to R94). -/

theorem eq_wordN_iff {w : Word} {opc : BitVec 4} :
    w = wordN opc ↔ w.extractLsb' 4 28 = 0#28 ∧ opcodeField w = opc := by
  have hw : w = w.extractLsb' 4 28 ++ opcodeField w := by
    rw [opcodeField, extractLsb'_append_adjacent w 0 4 28, BitVec.extractLsb'_eq_self]
  calc w = wordN opc
      ↔ w.extractLsb' 4 28 ++ opcodeField w = 0#28 ++ opc := by rw [← hw]; rfl
    _ ↔ _ := append_eq_append_iff

theorem eq_wordE_iff {w : Word} {f : Bool} {opc : BitVec 4} :
    w = wordE f opc ↔
      w.extractLsb' 9 23 = 0#23 ∧ w.getLsbD 8 = f ∧ w.extractLsb' 4 4 = 0#4 ∧ opcodeField w = opc := by
  have hw : w = w.extractLsb' 9 23 ++ BitVec.ofBool (w.getLsbD 8) ++ w.extractLsb' 4 4 ++ opcodeField w := by
    rw [opcodeField, ofBool_getLsbD, extractLsb'_append_adjacent w 8 1 23, extractLsb'_append_adjacent w 4 4 24,
      extractLsb'_append_adjacent w 0 4 28, BitVec.extractLsb'_eq_self]
  calc w = wordE f opc
      ↔ w.extractLsb' 9 23 ++ BitVec.ofBool (w.getLsbD 8) ++ w.extractLsb' 4 4 ++ opcodeField w =
          0#23 ++ BitVec.ofBool f ++ 0#4 ++ opc := by rw [← hw]; rfl
    _ ↔ _ := by simp only [append_eq_append_iff, BitVec.ofBool_eq_iff_eq, and_assoc]

theorem eq_wordW_iff {w : Word} {ms : BitVec 24} {opc : BitVec 4} :
    w = wordW ms opc ↔ w.extractLsb' 8 24 = ms ∧ w.extractLsb' 4 4 = 0#4 ∧ opcodeField w = opc := by
  have hw : w = w.extractLsb' 8 24 ++ w.extractLsb' 4 4 ++ opcodeField w := by
    rw [opcodeField, extractLsb'_append_adjacent w 4 4 24, extractLsb'_append_adjacent w 0 4 28,
      BitVec.extractLsb'_eq_self]
  calc w = wordW ms opc
      ↔ w.extractLsb' 8 24 ++ w.extractLsb' 4 4 ++ opcodeField w = ms ++ 0#4 ++ opc := by rw [← hw]; rfl
    _ ↔ _ := by simp only [append_eq_append_iff, and_assoc]

theorem eq_wordC_iff {w : Word} {src : BitVec 2} {mult : BitVec 16} {opc : BitVec 4} :
    w = wordC src mult opc ↔
      w.extractLsb' 16 16 = mult ∧ w.extractLsb' 10 6 = 0#6 ∧ w.extractLsb' 8 2 = src ∧ w.extractLsb' 4 4 = 0#4 ∧
        opcodeField w = opc := by
  have hw : w = w.extractLsb' 16 16 ++ w.extractLsb' 10 6 ++ w.extractLsb' 8 2 ++ w.extractLsb' 4 4 ++ opcodeField w := by
    rw [opcodeField, extractLsb'_append_adjacent w 10 6 16, extractLsb'_append_adjacent w 8 2 22,
      extractLsb'_append_adjacent w 4 4 24, extractLsb'_append_adjacent w 0 4 28, BitVec.extractLsb'_eq_self]
  calc w = wordC src mult opc
      ↔ w.extractLsb' 16 16 ++ w.extractLsb' 10 6 ++ w.extractLsb' 8 2 ++ w.extractLsb' 4 4 ++ opcodeField w =
          mult ++ 0#6 ++ src ++ 0#4 ++ opc := by rw [← hw]; rfl
    _ ↔ _ := by simp only [append_eq_append_iff, and_assoc]

/-! ## What each format decodes: the words of its layout, and their operands -/

theorem formatN_eq_ok_iff {w : Word} {i j : Instr} :
    formatN w i = .ok j ↔ i = j ∧ w = wordN (opcodeField w) := by
  simp only [formatN, eq_wordN_iff, and_true]
  split <;> simp [*]

theorem formatE_eq_ok_iff {w : Word} {mk : Bool → Instr} {j : Instr} :
    formatE w mk = .ok j ↔ ∃ f, mk f = j ∧ w = wordE f (opcodeField w) := by
  simp only [formatE, eq_wordE_iff, and_true]
  split <;> simp [*]

theorem formatW_eq_ok_iff {w : Word} {mk : BitVec 24 → Instr} {j : Instr} :
    formatW w mk = .ok j ↔ ∃ ms, mk ms = j ∧ w = wordW ms (opcodeField w) := by
  simp only [formatW, eq_wordW_iff, and_true]
  split <;> simp [*]

theorem formatC_eq_ok_iff {w : Word} {mk : BitVec 2 → BitVec 16 → Instr} {j : Instr} :
    formatC w mk = .ok j ↔ ∃ src mult, mk src mult = j ∧ w = wordC src mult (opcodeField w) := by
  simp only [formatC, eq_wordC_iff, and_true]
  split <;> simp [*]

/-- Settles O2: the word of each command carries its opcode, which selects the format that reads its operands back. -/
theorem decodeOfEncodeIsTheCommand : Obligations.DecodeOfEncodeIsTheCommand := by
  intro i
  cases i with
  | init f | setlp f =>
    simp [decode, encode, opcodeOf, opcodeField_wordE, formatE_eq_ok_iff]
  | reset | readid | start | read | measure | validate =>
    simp [decode, encode, opcodeOf, opcodeField_wordN, formatN_eq_ok_iff]
  | wait ms => simp [decode, encode, opcodeOf, opcodeField_wordW, formatW_eq_ok_iff]
  | kelvin src mult | celsius src mult | fahrenheit src mult | humidity src mult =>
    simp [decode, encode, opcodeOf, opcodeField_wordC, formatC_eq_ok_iff]

section
variable {w : Word} {opc : BitVec 4} (ho : (opcodeField w).toNat = opc.toNat) {i : Instr}
include ho

theorem encode_of_formatN {j : Instr} (henc : encode j = wordN opc) (h : formatN w j = .ok i) : encode i = w := by
  obtain ⟨rfl, hw⟩ := formatN_eq_ok_iff.1 h
  rw [henc, ← BitVec.eq_of_toNat_eq ho, ← hw]

theorem encode_of_formatE {mk : Bool → Instr} (henc : ∀ f, encode (mk f) = wordE f opc) (h : formatE w mk = .ok i) :
    encode i = w := by
  obtain ⟨f, rfl, hw⟩ := formatE_eq_ok_iff.1 h
  rw [henc, ← BitVec.eq_of_toNat_eq ho, ← hw]

theorem encode_of_formatW {mk : BitVec 24 → Instr} (henc : ∀ ms, encode (mk ms) = wordW ms opc)
    (h : formatW w mk = .ok i) : encode i = w := by
  obtain ⟨ms, rfl, hw⟩ := formatW_eq_ok_iff.1 h
  rw [henc, ← BitVec.eq_of_toNat_eq ho, ← hw]

theorem encode_of_formatC {mk : BitVec 2 → BitVec 16 → Instr}
    (henc : ∀ src mult, encode (mk src mult) = wordC src mult opc) (h : formatC w mk = .ok i) : encode i = w := by
  obtain ⟨src, mult, rfl, hw⟩ := formatC_eq_ok_iff.1 h
  rw [henc, ← BitVec.eq_of_toNat_eq ho, ← hw]

end

/-- Settles O3: the opcode selects the format, which decodes only the words of its layout. -/
theorem encodeOfDecodeIsTheWord : Obligations.EncodeOfDecodeIsTheWord := by
  intro w i h
  unfold decode at h
  split at h
  case h_1 ho => exact encode_of_formatE (opc := 0x1#4) ho (fun _ => rfl) h
  case h_2 ho => exact encode_of_formatN (opc := 0x2#4) ho rfl h
  case h_3 ho => exact encode_of_formatE (opc := 0x3#4) ho (fun _ => rfl) h
  case h_4 ho => exact encode_of_formatN (opc := 0x4#4) ho rfl h
  case h_5 ho => exact encode_of_formatN (opc := 0x5#4) ho rfl h
  case h_6 ho => exact encode_of_formatW (opc := 0x6#4) ho (fun _ => rfl) h
  case h_7 ho => exact encode_of_formatN (opc := 0x7#4) ho rfl h
  case h_8 ho => exact encode_of_formatN (opc := 0x8#4) ho rfl h
  case h_9 ho => exact encode_of_formatN (opc := 0x9#4) ho rfl h
  case h_10 ho => exact encode_of_formatC (opc := 0xA#4) ho (fun _ _ => rfl) h
  case h_11 ho => exact encode_of_formatC (opc := 0xB#4) ho (fun _ _ => rfl) h
  case h_12 ho => exact encode_of_formatC (opc := 0xC#4) ho (fun _ _ => rfl) h
  case h_13 ho => exact encode_of_formatC (opc := 0xD#4) ho (fun _ _ => rfl) h
  case h_14 => cases h

theorem decode_eq_ok_iff {w : Word} {i : Instr} : decode w = .ok i ↔ encode i = w :=
  ⟨encodeOfDecodeIsTheWord w i, by rintro rfl; exact decodeOfEncodeIsTheCommand i⟩

/-- Settles O1: each written word is the encoding of its command. -/
theorem writtenWordsDecodeToTheirCommands : Obligations.WrittenWordsDecodeToTheirCommands := by
  simp only [Obligations.WrittenWordsDecodeToTheirCommands, decode_eq_ok_iff]
  decide

/-! ## The opcode map -/

/-- A field that the mask keeps whole. -/
theorem extractLsb'_and_ones (w : Word) {m : Word} {start len : Nat}
    (hm : m.extractLsb' start len = BitVec.allOnes len) :
    (w &&& m).extractLsb' start len = w.extractLsb' start len := by
  rw [BitVec.extractLsb'_and, hm, BitVec.and_allOnes]

/-- A field that the mask clears. -/
theorem extractLsb'_and_zero (w : Word) {m : Word} {start len : Nat} (hm : m.extractLsb' start len = 0#len) :
    (w &&& m).extractLsb' start len = 0#len := by
  rw [BitVec.extractLsb'_and, hm, BitVec.and_zero]

theorem opcodeField_and_ones (w : Word) {m : Word} (hm : opcodeField m = BitVec.allOnes 4) :
    opcodeField (w &&& m) = opcodeField w := extractLsb'_and_ones w hm

/-! For each format, the words that match a row are those of its layout with any operands (R95). -/

theorem and_maskN_iff {w : Word} {opc : BitVec 4} : w &&& 0xFFFFFFFF#32 = wordN opc ↔ w = wordN opc := by
  rw [show 0xFFFFFFFF#32 = BitVec.allOnes 32 from rfl, BitVec.and_allOnes]

theorem and_maskE_iff {w : Word} {opc : BitVec 4} :
    w &&& 0xFFFFFEFF#32 = wordE false opc ↔ ∃ f, w = wordE f opc := by
  have hflag : (w &&& 0xFFFFFEFF#32).getLsbD 8 = false := by simp
  simp only [eq_wordE_iff, extractLsb'_and_ones w (m := 0xFFFFFEFF#32) (start := 9) (len := 23) rfl,
    extractLsb'_and_ones w (m := 0xFFFFFEFF#32) (start := 4) (len := 4) rfl,
    opcodeField_and_ones w (m := 0xFFFFFEFF#32) rfl, hflag]
  simp

theorem and_maskW_iff {w : Word} {opc : BitVec 4} :
    w &&& 0x000000FF#32 = wordW 0#24 opc ↔ ∃ ms, w = wordW ms opc := by
  simp only [eq_wordW_iff, extractLsb'_and_zero w (m := 0x000000FF#32) (start := 8) (len := 24) rfl,
    extractLsb'_and_ones w (m := 0x000000FF#32) (start := 4) (len := 4) rfl,
    opcodeField_and_ones w (m := 0x000000FF#32) rfl]
  simp

theorem and_maskC_iff {w : Word} {opc : BitVec 4} :
    w &&& 0x0000FCFF#32 = wordC 0#2 0#16 opc ↔ ∃ src mult, w = wordC src mult opc := by
  simp only [eq_wordC_iff, extractLsb'_and_zero w (m := 0x0000FCFF#32) (start := 16) (len := 16) rfl,
    extractLsb'_and_ones w (m := 0x0000FCFF#32) (start := 10) (len := 6) rfl,
    extractLsb'_and_zero w (m := 0x0000FCFF#32) (start := 8) (len := 2) rfl,
    extractLsb'_and_ones w (m := 0x0000FCFF#32) (start := 4) (len := 4) rfl,
    opcodeField_and_ones w (m := 0x0000FCFF#32) rfl]
  simp

/-! The word of any operands matches its format's row. -/

theorem wordE_and_mask (f : Bool) (opc : BitVec 4) : wordE f opc &&& 0xFFFFFEFF#32 = wordE false opc :=
  and_maskE_iff.2 ⟨f, rfl⟩

theorem wordW_and_mask (ms : BitVec 24) (opc : BitVec 4) : wordW ms opc &&& 0x000000FF#32 = wordW 0#24 opc :=
  and_maskW_iff.2 ⟨ms, rfl⟩

theorem wordC_and_mask (src : BitVec 2) (mult : BitVec 16) (opc : BitVec 4) :
    wordC src mult opc &&& 0x0000FCFF#32 = wordC 0#2 0#16 opc :=
  and_maskC_iff.2 ⟨src, mult, rfl⟩

/-- The word of a command matches a row (R95). -/
theorem encode_matches_row (i : Instr) : ∃ r ∈ opcodeTable, encode i &&& r.mask = r.pattern := by
  cases i with
  | init f => exact ⟨opcodeTable[0], List.getElem_mem _, wordE_and_mask f 0x1#4⟩
  | reset => exact ⟨opcodeTable[1], List.getElem_mem _, and_maskN_iff.2 rfl⟩
  | setlp f => exact ⟨opcodeTable[2], List.getElem_mem _, wordE_and_mask f 0x3#4⟩
  | readid => exact ⟨opcodeTable[3], List.getElem_mem _, and_maskN_iff.2 rfl⟩
  | start => exact ⟨opcodeTable[4], List.getElem_mem _, and_maskN_iff.2 rfl⟩
  | wait ms => exact ⟨opcodeTable[5], List.getElem_mem _, wordW_and_mask ms 0x6#4⟩
  | read => exact ⟨opcodeTable[6], List.getElem_mem _, and_maskN_iff.2 rfl⟩
  | measure => exact ⟨opcodeTable[7], List.getElem_mem _, and_maskN_iff.2 rfl⟩
  | validate => exact ⟨opcodeTable[8], List.getElem_mem _, and_maskN_iff.2 rfl⟩
  | kelvin src mult => exact ⟨opcodeTable[9], List.getElem_mem _, wordC_and_mask src mult 0xA#4⟩
  | celsius src mult => exact ⟨opcodeTable[10], List.getElem_mem _, wordC_and_mask src mult 0xB#4⟩
  | fahrenheit src mult => exact ⟨opcodeTable[11], List.getElem_mem _, wordC_and_mask src mult 0xC#4⟩
  | humidity src mult => exact ⟨opcodeTable[12], List.getElem_mem _, wordC_and_mask src mult 0xD#4⟩

section
variable {w : Word} {opc : BitVec 4}

theorem encodes_of_maskN {i : Instr} (henc : encode i = wordN opc) (h : w &&& 0xFFFFFFFF#32 = wordN opc) :
    ∃ i, encode i = w :=
  ⟨i, henc.trans (and_maskN_iff.1 h).symm⟩

theorem encodes_of_maskE {mk : Bool → Instr} (henc : ∀ f, encode (mk f) = wordE f opc)
    (h : w &&& 0xFFFFFEFF#32 = wordE false opc) : ∃ i, encode i = w := by
  obtain ⟨f, rfl⟩ := and_maskE_iff.1 h
  exact ⟨mk f, henc f⟩

theorem encodes_of_maskC {mk : BitVec 2 → BitVec 16 → Instr}
    (henc : ∀ src mult, encode (mk src mult) = wordC src mult opc) (h : w &&& 0x0000FCFF#32 = wordC 0#2 0#16 opc) :
    ∃ i, encode i = w := by
  obtain ⟨src, mult, rfl⟩ := and_maskC_iff.1 h
  exact ⟨mk src mult, henc src mult⟩

end

/-- A word that matches a row is the word of a command. -/
theorem encodes_of_matches_row {w : Word} {r : OpcodeRow} (hr : r ∈ opcodeTable) (h : w &&& r.mask = r.pattern) :
    ∃ i, encode i = w := by
  simp only [opcodeTable, List.mem_cons, List.not_mem_nil, or_false] at hr
  rcases hr with rfl | rfl | rfl | rfl | rfl | rfl | rfl | rfl | rfl | rfl | rfl | rfl | rfl
  · exact encodes_of_maskE (opc := 0x1#4) (mk := .init) (fun _ => rfl) h
  · exact encodes_of_maskN (i := .reset) rfl h
  · exact encodes_of_maskE (opc := 0x3#4) (mk := .setlp) (fun _ => rfl) h
  · exact encodes_of_maskN (i := .readid) rfl h
  · exact encodes_of_maskN (i := .start) rfl h
  · obtain ⟨ms, rfl⟩ := and_maskW_iff (opc := 0x6#4).1 h
    exact ⟨.wait ms, rfl⟩
  · exact encodes_of_maskN (i := .read) rfl h
  · exact encodes_of_maskN (i := .measure) rfl h
  · exact encodes_of_maskN (i := .validate) rfl h
  · exact encodes_of_maskC (opc := 0xA#4) (mk := .kelvin) (fun _ _ => rfl) h
  · exact encodes_of_maskC (opc := 0xB#4) (mk := .celsius) (fun _ _ => rfl) h
  · exact encodes_of_maskC (opc := 0xC#4) (mk := .fahrenheit) (fun _ _ => rfl) h
  · exact encodes_of_maskC (opc := 0xD#4) (mk := .humidity) (fun _ _ => rfl) h

theorem decodes_iff_matches_row (w : Word) :
    (∃ i, decode w = .ok i) ↔ ∃ r ∈ opcodeTable, w &&& r.mask = r.pattern := by
  simp only [decode_eq_ok_iff]
  constructor
  · rintro ⟨i, rfl⟩
    exact encode_matches_row i
  · rintro ⟨r, hr, h⟩
    exact encodes_of_matches_row hr h

/-- Every row's mask holds the whole opcode field, so a word that matches the row has the row's opcode (R95). -/
theorem opcodeField_of_matches_row {w : Word} {r : OpcodeRow} (hr : r ∈ opcodeTable) (h : w &&& r.mask = r.pattern) :
    opcodeField w = opcodeField r.pattern := by
  have hmask : ∀ r ∈ opcodeTable, opcodeField r.mask = BitVec.allOnes 4 := by decide
  rw [← h, opcodeField_and_ones w (hmask r hr)]

/-- No two rows share an opcode (R95). -/
theorem row_eq_of_opcodeField_eq :
    ∀ r ∈ opcodeTable, ∀ r' ∈ opcodeTable, opcodeField r.pattern = opcodeField r'.pattern → r = r' := by
  decide

theorem opcodeField_encode (i : Instr) : opcodeField (encode i) = opcodeOf i := by
  cases i with
  | init f => exact Laws.OpcodeField.init f
  | reset => exact Laws.OpcodeField.reset
  | setlp f => exact Laws.OpcodeField.setlp f
  | readid => exact Laws.OpcodeField.readid
  | start => exact Laws.OpcodeField.start
  | wait ms => exact Laws.OpcodeField.wait ms
  | read => exact Laws.OpcodeField.read
  | measure => exact Laws.OpcodeField.measure
  | validate => exact Laws.OpcodeField.validate
  | kelvin src mult => exact Laws.OpcodeField.kelvin src mult
  | celsius src mult => exact Laws.OpcodeField.celsius src mult
  | fahrenheit src mult => exact Laws.OpcodeField.fahrenheit src mult
  | humidity src mult => exact Laws.OpcodeField.humidity src mult

/-- Settles O4: the words that match a row are the commands' words, and a word's opcode determines the row. -/
theorem decodableWordsAreTheTableRows : Obligations.DecodableWordsAreTheTableRows := by
  refine ⟨decodes_iff_matches_row, ?unique, ?opcode⟩
  case unique =>
    intro w r hr r' hr' h h'
    exact row_eq_of_opcodeField_eq r hr r' hr'
      ((opcodeField_of_matches_row hr h).symm.trans (opcodeField_of_matches_row hr' h'))
  case opcode =>
    intro w i hd r hr h
    obtain rfl := decode_eq_ok_iff.1 hd
    rw [← opcodeField_of_matches_row hr h, opcodeField_encode]

/-! ## The lines of a host program -/

theorem wordW_eq_or (ms : BitVec 24) (opc : BitVec 4) :
    wordW ms opc = (ms.setWidth 32 <<< 8) ||| opc.setWidth 32 := by
  calc wordW ms opc
      = (ms ++ 0#4 ++ opc).setWidth 32 := (BitVec.setWidth_eq _).symm
    _ = _ := by
      rw [BitVec.setWidth_append_append_eq_shiftLeft_setWidth_or]
      simp

theorem wordC_eq_or (src : BitVec 2) (mult : BitVec 16) (opc : BitVec 4) :
    wordC src mult opc = (mult.setWidth 32 <<< 16) ||| (src.setWidth 32 <<< 8) ||| opc.setWidth 32 := by
  calc wordC src mult opc
      = (mult ++ 0#6 ++ src ++ 0#4 ++ opc).setWidth 32 := (BitVec.setWidth_eq _).symm
    _ = _ := by
      simp only [BitVec.setWidth_append_eq_shiftLeft_setWidth_or, BitVec.shiftLeft_or_distrib, ← BitVec.shiftLeft_add]
      simp

end Sys2Proof

namespace Sys2Proof.Machine

/-- Settles O5: without operands a line's word is a value; with them it is its format's fields, shifted into place. -/
theorem syntaxAssemblesToItsEncodings : Obligations.SyntaxAssemblesToItsEncodings := by
  intro p ms src m
  simp only [assemble, asmInstr, encode, opcodeOf, wordW_eq_or, wordC_eq_or]
  exact ⟨rfl, rfl, rfl, rfl, rfl, rfl, rfl, rfl, rfl, rfl, rfl, rfl, rfl, rfl, rfl, rfl, rfl, rfl⟩

/-! ## The numbers of the codes -/

/-- Settles O6: the two tables, and their bounds code by code. -/
theorem statusAndErrorCodesAreNumbered : Obligations.StatusAndErrorCodesAreNumbered := by
  refine ⟨rfl, rfl, rfl, rfl, rfl, rfl, rfl, rfl, rfl, rfl, rfl, rfl, fun c => ?_, fun e => ?_⟩
  · cases c <;> decide
  · cases e <;> decide

end Sys2Proof.Machine
end

section
/-! PROOFS. Illegal words and illegal operands: the acceptance and end of a word that no row spells (30_encoding.md R100),
and which steps set `BAD_ARG` (R101). -/

namespace Sys2Proof.Machine

/-! ## An illegal word -/

theorem decode_error_of_matches_no_row {w : Word} (h : ∀ r ∈ opcodeTable, w &&& r.mask ≠ r.pattern) :
    ∃ e, decode w = .error e := by
  cases hd : decode w with
  | error e => exact ⟨e, rfl⟩
  | ok i =>
    obtain ⟨r, hr, hw⟩ := (decodes_iff_matches_row w).1 ⟨i, hd⟩
    exact absurd hw (h r hr)

/-- Accepted at rest and finished, a command leaves the block at rest, with the word, the operand and the error recorded. -/
theorem finish_acceptCommand {s : State} (h : AtRest s) (e : CmdErr) (w : Word) (rest : List Move) :
    finish e (acceptCommand w { s with script := rest }) =
      { s with script := rest, curCmd := w, curArg := s.arg0, lastOpc := opcodeField w, cmdErr := e } := by
  obtain ⟨hphase, hbusy, hquiet, _⟩ := h
  simp only [finish, acceptCommand, ← hphase, ← hbusy, ← hquiet]

/-- Step 1 of a command whose word decodes to none (R100, 40_protocol.md R131). -/
theorem step_accepted_illegal {s : State} {w : Word} {e : DecodeError} {rest : List Move} (hf : s.faulted = none)
    (ho : s.outstanding = none) (hs : s.script = .sequencer :: rest) (hd : decode w = .error e) :
    step (acceptCommand w s) = .next (finish .illegal (acceptCommand w { s with script := rest })) := by
  have hw : waiting (acceptCommand w { s with script := rest }) = false := waiting_eq_false (by simp [ho])
  calc step (acceptCommand w s)
      = sequencerMove (acceptCommand w { s with script := rest }) := step_script_cons (s := acceptCommand w s) hf hs
    _ = _ := sequencerMove_illegal (acceptCommand_phase w _) hw hd

/-- Settles O9: a block at rest accepts the word, and the step after that finds no command in it. -/
theorem illegalWordIsAcceptedAndFinishesIllegal : Obligations.IllegalWordIsAcceptedAndFinishesIllegal := by
  intro s w rest hrest hw hs
  obtain ⟨e, hd⟩ := decode_error_of_matches_no_row hw
  have haccept : step s = .next (acceptCommand w { s with script := .sequencer :: rest }) :=
    (step_host_write (r := .cmd) hrest.no_fault hs).trans (congrArg _ (writeReg_cmd_idle w hrest.not_busy))
  have hfinish := step_accepted_illegal (s := { s with script := .sequencer :: rest }) hrest.no_fault hrest.quiet rfl hd
  refine ⟨⟨_, haccept, rfl, hrest.no_fault⟩, ?_⟩
  rw [run_succ 1 haccept, run_succ 0 hfinish, run_zero, finish_acceptCommand hrest]
  rfl

/-! ## Illegal operands -/

/-- The operands that R101 refuses. -/
def IllegalOperands (p : Params) (src : BitVec 2) (mult : BitVec 16) : Prop :=
  src = 3#2 ∨ mult = 0#16 ∨ p.multMax.toNat < mult.toNat

theorem conversionArgsLegal_eq_false_iff (p : Params) (src : BitVec 2) (mult : BitVec 16) :
    conversionArgsLegal p src mult = false ↔ IllegalOperands p src mult := by
  have hsrc : src.toNat = 3 ↔ src = 3#2 := BitVec.toNat_inj (y := 3#2)
  have hmult : mult.toNat = 0 ↔ mult = 0#16 := BitVec.toNat_inj (y := 0#16)
  rw [← Bool.not_eq_true, conversionArgsLegal_iff, IllegalOperands, ← hsrc, ← hmult]
  omega

/-- The prologue refuses the arguments of conversion commands only, those with illegal operands. -/
theorem badArg_iff (p : Params) (i : Instr) :
    badArg p i = true ↔ ∃ src mult,
      (i = .kelvin src mult ∨ i = .celsius src mult ∨ i = .fahrenheit src mult ∨ i = .humidity src mult) ∧
        IllegalOperands p src mult := by
  rw [badArg_eq_not_argsLegal, Bool.not_eq_true']
  cases i with
  | kelvin src mult | celsius src mult | fahrenheit src mult | humidity src mult =>
    simp [Instr.argsLegal, conversionArgsLegal_eq_false_iff]
  | init _ | reset | setlp _ | readid | start | wait _ | read | measure | validate => simp [Instr.argsLegal]

/-- Step 1 of a conversion with refused operands (R101, 40_protocol.md R131). -/
theorem conversion_badArg {i : Instr} {s : State} (u : ScaleUnit) (src : BitVec 2) (mult : BitVec 16)
    (hk : stepIndex s = 1) (hr : s.initState = .ready) (hbad : badArg s.params i = true) :
    conversion i u src mult s = .next (finish .badArg s) := by
  simp only [conversion, hk]
  exact prologue_badArg _ hr hbad

/-! ### Steps that set no `BAD_ARG` -/

/-- The result is no next state in which `BAD_ARG` is newly set. -/
def SetsNoBadArg (s : State) (x : Result State) : Prop := ∀ t, x = .next t → t.cmdErr = .badArg → s.cmdErr = .badArg

section
variable {s : State}

theorem SetsNoBadArg.next {t : State} (h : t.cmdErr = .badArg → s.cmdErr = .badArg) : SetsNoBadArg s (.next t) := by
  rintro _ ⟨⟩
  exact h

/-- A step that leaves `CMD_ERR` alone. -/
theorem SetsNoBadArg.kept {t : State} (h : t.cmdErr = s.cmdErr) : SetsNoBadArg s (.next t) := .next fun ht => h ▸ ht

theorem SetsNoBadArg.finish {e : CmdErr} {u : State} (he : e ≠ .badArg) : SetsNoBadArg s (.next (finish e u)) :=
  .next fun ht => absurd ht he

theorem SetsNoBadArg.refused {r : Refusal} : SetsNoBadArg s (.refused r) := by
  rintro _ ⟨⟩

theorem SetsNoBadArg.ite {c : Prop} [Decidable c] {x y : Result State} (hx : SetsNoBadArg s x)
    (hy : SetsNoBadArg s y) : SetsNoBadArg s (if c then x else y) := by
  split
  · exact hx
  · exact hy

theorem SetsNoBadArg.prologue {i : Instr} {body : Result State} (hi : badArg s.params i = false)
    (h : SetsNoBadArg s body) : SetsNoBadArg s (prologue i s body) := by
  rcases prologue_cases i s body with ⟨_, _, he⟩ | ⟨_, hbad, _⟩ | ⟨_, _, he⟩
  · rw [he]
    exact .finish (by simp)
  · exact absurd (hbad.symm.trans hi) (by simp)
  · rw [he]
    exact h

theorem SetsNoBadArg.onAck {f : Bool → Result State} (h : ∀ ok, SetsNoBadArg s (f ok)) : SetsNoBadArg s (onAck s f) := by
  rcases onAck_cases s f with ⟨_, ok, _, he⟩ | he <;> rw [he]
  · exact h ok
  · exact .refused

theorem SetsNoBadArg.onData {f : Bool → List Byte → Result State} (h : ∀ ok bytes, SetsNoBadArg s (f ok bytes)) :
    SetsNoBadArg s (onData s f) := by
  rcases onData_cases s f with ⟨_, ok, bytes, _, he⟩ | he <;> rw [he]
  · exact h ok bytes
  · exact .refused

theorem SetsNoBadArg.onDone {x : Result State} (h : SetsNoBadArg s x) : SetsNoBadArg s (onDone s x) := by
  rcases onDone_cases s x with ⟨_, _, he⟩ | he <;> rw [he]
  · exact h
  · exact .refused

theorem SetsNoBadArg.triggerIssue {j : Nat} {done : Bool → Result State} (h : ∀ ok, SetsNoBadArg s (done ok)) :
    SetsNoBadArg s (triggerIssue j s done) := by
  rcases triggerIssue_cases j s done with ⟨_, _, he⟩ | ⟨_, he⟩ <;> rw [he]
  · exact .kept rfl
  · exact h true

theorem SetsNoBadArg.triggerStep {j : Nat} {done : Bool → Result State} (h : ∀ ok, SetsNoBadArg s (done ok)) :
    SetsNoBadArg s (triggerStep j s done) := .onAck fun _ => .ite (.triggerIssue h) (h false)

theorem SetsNoBadArg.identityFirst {k : Nat} {failed : State} (h : SetsNoBadArg s (.next failed)) :
    SetsNoBadArg s (identityFirst k s failed) := .onData fun _ _ => .ite (.kept rfl) h

theorem SetsNoBadArg.readIssue {base : Nat} : SetsNoBadArg s (.next (readIssue base s)) := by
  rw [readIssue_eq]
  exact .kept rfl

theorem SetsNoBadArg.finishReadings {okT okH : Bool} {mwT mwH : Word} :
    SetsNoBadArg s (.next (finishReadings okT mwT okH mwH s)) := .finish (by split <;> simp)

theorem SetsNoBadArg.readFirst {base : Nat} : SetsNoBadArg s (readFirst base s) := by
  rcases readFirst_cases base s with ⟨_, _, _, he⟩ | ⟨_, _, _, _, he⟩ | he <;> rw [he]
  · exact .kept rfl
  · exact .finishReadings
  · exact .refused

theorem SetsNoBadArg.readSecond : SetsNoBadArg s (readSecond s) := by
  rcases readSecond_cases s with ⟨_, _, _, _, he⟩ | he <;> rw [he]
  · exact .finishReadings
  · exact .refused

theorem SetsNoBadArg.finishInit {pid : BitVec 16} {uid : BitVec 64} :
    SetsNoBadArg s (.next (finishInit pid uid s)) := by
  unfold Machine.finishInit
  split
  · exact .finish (by simp)
  · exact .finish (by simp)

theorem SetsNoBadArg.startDone (ok : Bool) : SetsNoBadArg s (startDone s ok) := by
  cases ok with
  | false => exact .finish (by simp)
  | true => exact .finish (by simp)

theorem SetsNoBadArg.measureTriggered (ok : Bool) : SetsNoBadArg s (measureTriggered s ok) := by
  cases ok with
  | false => exact .finish (by simp)
  | true => exact .kept rfl

theorem SetsNoBadArg.finishConverted {r : Int} : SetsNoBadArg s (.next (finishConverted r s)) := by
  unfold Machine.finishConverted
  split
  · exact .finish (by simp)
  · exact .finish (by simp)

/-! One lemma per command. -/

theorem execInit_setsNoBadArg (d : Bool) : SetsNoBadArg s (execInit d s) := by
  unfold execInit
  split
  · exact .prologue rfl (.kept rfl)
  · exact .onAck fun _ => .ite (.ite (.kept rfl) (.kept rfl)) (.finish (by simp))
  · exact .onDone (.kept rfl)
  · exact .identityFirst (.finish (by simp))
  · exact .onData fun _ _ => .ite .finishInit (.finish (by simp))
  · exact .refused

theorem execReset_setsNoBadArg : SetsNoBadArg s (execReset s) := by
  unfold execReset
  split
  · exact .prologue rfl (.kept rfl)
  · refine .onAck fun ok => ?_
    split
    · exact .finish (by simp)
    · exact .finish (by simp)
  · exact .refused

theorem execSetlp_setsNoBadArg (e : Bool) : SetsNoBadArg s (execSetlp e s) := by
  unfold execSetlp
  split
  · exact .prologue rfl (.kept rfl)
  · exact .onAck fun _ => .finish (by split <;> simp)
  · exact .refused

theorem execReadid_setsNoBadArg : SetsNoBadArg s (execReadid s) := by
  unfold execReadid
  split
  · exact .prologue rfl (.kept rfl)
  · exact .identityFirst (.finish (by simp))
  · refine .onData fun ok bytes => ?_
    split
    · exact .finish (by simp)
    · exact .finish (by simp)
  · exact .refused

theorem execStart_setsNoBadArg : SetsNoBadArg s (execStart s) := by
  unfold execStart
  split
  · exact .refused
  · exact .prologue rfl (.ite (.kept rfl) (.triggerIssue .startDone))
  · exact .ite (.triggerStep .startDone) .refused

theorem execWait_setsNoBadArg (ms : BitVec 24) : SetsNoBadArg s (execWait ms s) := by
  unfold execWait
  split
  · exact .prologue rfl (.kept rfl)
  · exact .onDone (.finish (by simp))
  · exact .refused

theorem execRead_setsNoBadArg : SetsNoBadArg s (execRead s) := by
  unfold execRead
  split
  · exact .prologue rfl (.ite (.kept rfl) .readIssue)
  · exact .readFirst
  · exact .readSecond
  · exact .refused

theorem execMeasure_setsNoBadArg : SetsNoBadArg s (execMeasure s) := by
  unfold execMeasure
  split
  · exact .refused
  · exact .prologue rfl (.ite (.kept rfl) (.triggerIssue .measureTriggered))
  · exact .ite (.triggerStep .measureTriggered) (.ite (.onDone .readIssue) (.ite .readFirst (.ite .readSecond .refused)))

theorem execValidate_setsNoBadArg : SetsNoBadArg s (execValidate s) := by
  unfold execValidate
  split
  · exact .prologue rfl (.finish (by simp))
  · exact .refused

/-- Past the prologue `SRC` selects a raw input, so the branch of log 16 is not taken. -/
theorem conversion_setsNoBadArg {i : Instr} (u : ScaleUnit) {src : BitVec 2} {mult : BitVec 16} (hsrc : src.toNat ≠ 3)
    (hi : badArg s.params i = false) : SetsNoBadArg s (conversion i u src mult s) := by
  obtain ⟨raw, hraw⟩ := rawSource_isSome s hsrc
  simp only [conversion, hraw]
  split
  · exact .prologue hi .finishConverted
  · exact .refused

theorem exec_setsNoBadArg {i : Instr} (hi : badArg s.params i = false) : SetsNoBadArg s (exec i s) := by
  have hsrc : ∀ {src : BitVec 2} {x y : Bool}, (src.toNat == 3 || x || y) = false → src.toNat ≠ 3 := by
    rintro src x y h h3
    simp [h3] at h
  cases i with
  | init d => exact execInit_setsNoBadArg d
  | reset => exact execReset_setsNoBadArg
  | setlp e => exact execSetlp_setsNoBadArg e
  | readid => exact execReadid_setsNoBadArg
  | start => exact execStart_setsNoBadArg
  | wait ms => exact execWait_setsNoBadArg ms
  | read => exact execRead_setsNoBadArg
  | measure => exact execMeasure_setsNoBadArg
  | validate => exact execValidate_setsNoBadArg
  | kelvin src mult => exact conversion_setsNoBadArg .kelvin (hsrc hi) hi
  | celsius src mult => exact conversion_setsNoBadArg .celsius (hsrc hi) hi
  | fahrenheit src mult => exact conversion_setsNoBadArg .fahrenheit (hsrc hi) hi
  | humidity src mult => exact conversion_setsNoBadArg .humidity (hsrc hi) hi

end

/-- Settles O12: the prologue refuses such operands before the body, and nothing but this refusal sets `BAD_ARG`. -/
theorem illegalOperandsFinishBadArg : Obligations.IllegalOperandsFinishBadArg := by
  constructor
  · intro s l src mult hat hr hop
    have refused : ∀ i u, (i = .kelvin src mult ∨ i = .celsius src mult ∨ i = .fahrenheit src mult ∨
        i = .humidity src mult) → conversion i u src mult s = .next (finish .badArg s) := fun i u hi =>
      conversion_badArg u src mult hat.stepIndex_eq hr ((badArg_iff s.params i).2 ⟨src, mult, hi, hop⟩)
    exact ⟨refused _ .kelvin (by simp), refused _ .celsius (by simp), refused _ .fahrenheit (by simp),
      refused _ .humidity (by simp)⟩
  · intro s i t ht hset hunset
    have hbad : badArg s.params i = true := by
      by_contra hlegal
      exact hunset (exec_setsNoBadArg (Bool.eq_false_iff.2 hlegal) t ht hset)
    exact (badArg_iff s.params i).1 hbad

end Sys2Proof.Machine
end

section
/-! PROOFS. The Register Protocol's commands (40_protocol.md): what each step of a command does with the answer it consumes,
in the terms of the shared operations; and the step of a block in which a word has been placed (log 6). -/

namespace Sys2Proof.Machine

/-! ## Consuming the answer at a step -/

section
variable {s : State} {k : Nat} {l : Locals} {r : Request} {ok : Bool} {bytes : List Byte}

theorem AtStep.onAck_eq (h : AtStep s k l (answered r (.ack ok))) (f : Bool → Result State) : onAck s f = f ok :=
  Machine.onAck_eq f h.at_outstanding

theorem AtStep.onData_eq (h : AtStep s k l (answered r (.data ok bytes))) (f : Bool → List Byte → Result State) :
    onData s f = f ok bytes :=
  Machine.onData_eq f h.at_outstanding

theorem AtStep.onDone_eq (h : AtStep s k l (answered r .done)) (x : Result State) : onDone s x = x :=
  Machine.onDone_eq x h.at_outstanding

/-! ## The subroutines -/

theorem AtStep.identityFirst_ok (h : AtStep s k l (answered r (.data true bytes))) (k' : Nat) (failed : State) :
    identityFirst k' s failed =
      .next (issue (.busRead s.params.regUid s.params.uidBytes) k' { l with partId := BitVec.ofNat 16 (le bytes) } s) := by
  rw [identityFirst, h.onData_eq, h.stepLocals_eq]
  rfl

theorem AtStep.identityFirst_failed (h : AtStep s k l (answered r (.data false bytes))) (k' : Nat) (failed : State) :
    identityFirst k' s failed = .next failed :=
  h.onData_eq _

theorem triggerIssue_of_write {j : Nat} {a v : Byte} (hw : s.params.triggerWrites[j]? = some (a, v))
    (done : Bool → Result State) :
    triggerIssue j s done = .next (issue (.busWrite a v) (j + 2) (stepLocals s) s) := by
  simp only [triggerIssue, hw]

theorem triggerIssue_of_no_write {j : Nat} (hj : s.params.triggerWrites.length ≤ j) (done : Bool → Result State) :
    triggerIssue j s done = done true := by
  simp only [triggerIssue, List.getElem?_eq_none hj]

theorem AtStep.triggerStep_failed (h : AtStep s k l (answered r (.ack false))) (j : Nat) (done : Bool → Result State) :
    triggerStep j s done = done false :=
  h.onAck_eq _

theorem AtStep.triggerStep_ok (h : AtStep s k l (answered r (.ack true))) (j : Nat) (done : Bool → Result State) :
    triggerStep j s done = triggerIssue (j + 1) s done :=
  h.onAck_eq _

theorem AtStep.readFirst_split (h : AtStep s k l (answered r (.data ok bytes))) (hm : s.params.readMode = .split)
    (base : Nat) :
    readFirst base s =
      .next (issue (.busRead s.params.regHVal (wordBytes s.params.layout)) (base + 2)
        { l with tOk := ok, tWord := leWord bytes } s) := by
  rw [readFirst, h.onData_eq, hm, h.stepLocals_eq]

theorem AtStep.readFirst_combined (h : AtStep s k l (answered r (.data ok bytes)))
    (hm : s.params.readMode = .combined) (base : Nat) :
    readFirst base s =
      .next (finishReadings ok (leWord (bytes.take (wordBytes s.params.layout))) ok
        (leWord (bytes.drop (wordBytes s.params.layout))) s) := by
  rw [readFirst, h.onData_eq, hm]

theorem AtStep.readSecond_split (h : AtStep s k l (answered r (.data ok bytes))) (hm : s.params.readMode = .split) :
    readSecond s = .next (finishReadings l.tOk l.tWord ok (leWord bytes) s) := by
  simp only [readSecond, hm, h.onData_eq, h.stepLocals_eq]

end

/-- The finishing step of `READ` and `MEASURE` writes each reading from its own word (R138, R139, R143). -/
theorem finishReadings_eq (okT : Bool) (mwT : Word) (okH : Bool) (mwH : Word) (s : State) :
    finishReadings okT mwT okH mwH s =
      finish (if okT = true ∧ okH = true then .none else .bus) { s with
        tData := if okT then (dataField s.params.layout mwT).setWidth 17 else s.tData
        tStatus := if okT then classify s.params mwT else .busError
        hData := if okH then (dataField s.params.layout mwH).setWidth 17 else s.hData
        hStatus := if okH then classify s.params mwH else .busError
        convPending := false
        waitAcc := 0#32 } := by
  cases okT <;> cases okH <;> rfl

/-! ## `RESET`, `SETLP`, `READID`, `WAIT` -/

section
variable {s : State} {l : Locals} {r : Request} {ok : Bool} {bytes : List Byte}

theorem exec_reset_first (h : AtStep s 1 l none) (hr : s.initState = .ready) :
    exec .reset s = .next (issue (.busWrite s.params.regSysCtrl s.params.sysCtrlReset) 2 l s) := by
  simp only [exec, execReset, h.stepIndex_eq, h.stepLocals_eq]
  exact prologue_pass _ hr rfl

theorem exec_reset_answered (h : AtStep s 2 l (answered r (.ack ok))) :
    exec .reset s = .next (if ok then finish .none (clearConversion s) else finish .bus s) := by
  simp only [exec, execReset, h.stepIndex_eq, h.onAck_eq]

/-- Settles O14: the reset write, then its two outcomes. -/
theorem resetFollowsItsSteps : Obligations.ResetFollowsItsSteps := fun _ _ =>
  ⟨exec_reset_first, fun _ => exec_reset_answered, fun _ => exec_reset_answered⟩

theorem exec_setlp_first {enable : Bool} (h : AtStep s 1 l none) (hr : s.initState = .ready) :
    exec (.setlp enable) s =
      .next (issue (.busWrite s.params.regSysCtrl
        (if enable then s.params.sysCtrlLowPower else s.params.sysCtrlHighPower)) 2 l s) := by
  simp only [exec, execSetlp, h.stepIndex_eq, h.stepLocals_eq]
  exact prologue_pass _ hr rfl

theorem exec_setlp_answered {enable : Bool} (h : AtStep s 2 l (answered r (.ack ok))) :
    exec (.setlp enable) s = .next (finish (if ok then .none else .bus) s) := by
  simp only [exec, execSetlp, h.stepIndex_eq, h.onAck_eq]

/-- Settles O15: the power-mode write, then its outcome. -/
theorem setlpFollowsItsSteps : Obligations.SetlpFollowsItsSteps := fun _ _ _ =>
  ⟨exec_setlp_first, fun _ _ => exec_setlp_answered⟩

theorem exec_readid_first (h : AtStep s 1 l none) (hr : s.initState = .ready) :
    exec .readid s = .next (issue (.busRead s.params.regPartId s.params.partIdBytes) 2 l s) := by
  simp only [exec, execReadid, h.stepIndex_eq, identityIssue, h.stepLocals_eq]
  exact prologue_pass _ hr rfl

theorem exec_readid_partId (h : AtStep s 2 l (answered r (.data true bytes))) :
    exec .readid s =
      .next (issue (.busRead s.params.regUid s.params.uidBytes) 3 { l with partId := BitVec.ofNat 16 (le bytes) } s) := by
  simp only [exec, execReadid, h.stepIndex_eq, h.identityFirst_ok]

/-- A failed identity read, the first or the second, writes no identity register (R135, R142). -/
theorem exec_readid_failed
    (h : AtStep s 2 l (answered r (.data false bytes)) ∨ AtStep s 3 l (answered r (.data false bytes))) :
    exec .readid s = .next (finish .bus s) := by
  rcases h with h | h
  · simp only [exec, execReadid, h.stepIndex_eq, h.identityFirst_failed]
  · simp only [exec, execReadid, h.stepIndex_eq, h.onData_eq, Bool.false_eq_true, if_false]

theorem exec_readid_uid (h : AtStep s 3 l (answered r (.data true bytes))) :
    exec .readid s = .next (finish .none (commitIdentity l.partId (BitVec.ofNat 64 (le bytes)) s)) := by
  simp only [exec, execReadid, h.stepIndex_eq, h.onData_eq, h.stepLocals_eq, if_true]

/-- Settles O16: the two identity reads, then the identity registers, or `BUS` after the first failure. -/
theorem readidFollowsItsSteps : Obligations.ReadidFollowsItsSteps := fun _ _ =>
  ⟨exec_readid_first, fun _ _ => exec_readid_partId, fun _ _ => exec_readid_failed, fun _ _ => exec_readid_uid⟩

theorem exec_wait_first {ms : BitVec 24} (h : AtStep s 1 l none) (hr : s.initState = .ready) :
    exec (.wait ms) s = .next (issue (.delay ms) 2 l s) := by
  simp only [exec, execWait, h.stepIndex_eq, h.stepLocals_eq]
  exact prologue_pass _ hr rfl

theorem exec_wait_done {ms : BitVec 24} (h : AtStep s 2 l (answered r .done)) :
    exec (.wait ms) s = .next (finish .none (commitWait ms s)) := by
  simp only [exec, execWait, h.stepIndex_eq, h.onDone_eq]

end

/-- The saturated sum fits the counter, so it is the counter's value (10_state.md R44). -/
theorem addWait_toNat (acc : Word) (ms : BitVec 24) :
    (addWait acc ms).toNat = min (acc.toNat + ms.toNat) (2 ^ 32 - 1) := by
  rw [addWait, BitVec.toNat_ofNat]
  exact Nat.mod_eq_of_lt (by omega)

theorem commitWait_of_not_pending {s : State} {ms : BitVec 24} (h : s.convPending = false) : commitWait ms s = s := by
  simp [commitWait, h]

theorem commitWait_of_pending {s : State} {ms : BitVec 24} (h : s.convPending = true) :
    commitWait ms s = { s with waitAcc := addWait s.waitAcc ms } := by
  simp [commitWait, h]

/-- Settles O18: the delay, then the sum, which counts only while a conversion is pending. -/
theorem waitFollowsItsSteps : Obligations.WaitFollowsItsSteps := by
  intro s l ms
  refine ⟨exec_wait_first, fun r h hp => ?idle, fun r h hp => ⟨addWait s.waitAcc ms, ?pending, addWait_toNat _ _⟩⟩
  case idle => rw [exec_wait_done h, commitWait_of_not_pending hp]
  case pending => rw [exec_wait_done h, commitWait_of_pending hp]

/-! ## `INIT` -/

section
variable {s : State} {l : Locals} {d : Bool} {r : Request} {bytes : List Byte}

theorem exec_init_first (h : AtStep s 1 l none) :
    exec (.init d) s =
      .next (issue (.busWrite s.params.regSysCtrl s.params.sysCtrlReset) 2 { l with offset := initOffset d s } s) := by
  simp only [exec, execInit, h.stepIndex_eq, h.stepLocals_eq]
  exact prologue_init d s _

theorem exec_init_reset_failed (h : AtStep s 2 l (answered r (.ack false))) :
    exec (.init d) s = .next (finish .bus { s with initState := .failed }) := by
  simp only [exec, execInit, h.stepIndex_eq, h.onAck_eq, Bool.false_eq_true, if_false]

theorem exec_init_boot_delay (h : AtStep s 2 l (answered r (.ack true))) (hb : s.params.initBootDelayMs ≠ 0#24) :
    exec (.init d) s = .next (issue (.delay s.params.initBootDelayMs) 3 l s) := by
  simp only [exec, execInit, h.stepIndex_eq, h.onAck_eq, h.stepLocals_eq, if_true, if_pos hb]

/-- The part identifier is read after the boot delay, or after the reset write when there is none (R132). -/
theorem exec_init_identify
    (h : (AtStep s 2 l (answered r (.ack true)) ∧ s.params.initBootDelayMs = 0#24) ∨ AtStep s 3 l (answered r .done)) :
    exec (.init d) s = .next (issue (.busRead s.params.regPartId s.params.partIdBytes) 4 l s) := by
  rcases h with ⟨h, hb⟩ | h
  · simp only [exec, execInit, h.stepIndex_eq, h.onAck_eq, identityIssue, h.stepLocals_eq, if_true, hb, ne_eq,
      not_true_eq_false, if_false]
  · simp only [exec, execInit, h.stepIndex_eq, h.onDone_eq, identityIssue, h.stepLocals_eq]

theorem exec_init_partId (h : AtStep s 4 l (answered r (.data true bytes))) :
    exec (.init d) s =
      .next (issue (.busRead s.params.regUid s.params.uidBytes) 5 { l with partId := BitVec.ofNat 16 (le bytes) } s) := by
  simp only [exec, execInit, h.stepIndex_eq, h.identityFirst_ok]

/-- Either identity read failed (R132, R142). -/
theorem exec_init_read_failed
    (h : AtStep s 4 l (answered r (.data false bytes)) ∨ AtStep s 5 l (answered r (.data false bytes))) :
    exec (.init d) s = .next (finish .bus (failInit s)) := by
  rcases h with h | h
  · simp only [exec, execInit, h.stepIndex_eq, h.identityFirst_failed]
  · simp only [exec, execInit, h.stepIndex_eq, h.onData_eq, Bool.false_eq_true, if_false]

theorem exec_init_uid (h : AtStep s 5 l (answered r (.data true bytes))) :
    exec (.init d) s = .next (finishInit l.partId (BitVec.ofNat 64 (le bytes)) s) := by
  simp only [exec, execInit, h.stepIndex_eq, h.onData_eq, h.stepLocals_eq, if_true]

theorem exec_init_mismatched (h : AtStep s 5 l (answered r (.data true bytes)))
    (hp : l.partId ≠ s.params.expectedPartId) :
    exec (.init d) s =
      .next (finish .idMismatch (failInit (commitIdentity l.partId (BitVec.ofNat 64 (le bytes)) s))) := by
  rw [exec_init_uid h, finishInit, if_pos hp]

theorem exec_init_matched (h : AtStep s 5 l (answered r (.data true bytes)))
    (hp : l.partId = s.params.expectedPartId) :
    exec (.init d) s =
      .next (finish .none (clearConversion
        { commitIdentity l.partId (BitVec.ofNat 64 (le bytes)) s with calOffset := l.offset, initState := .ready })) := by
  rw [exec_init_uid h, finishInit, if_neg (not_not_intro hp), h.stepLocals_eq]

end

/-- Settles O13: each step of `INIT` issues its request or ends with its commit group. -/
theorem initFollowsItsSteps : Obligations.InitFollowsItsSteps := fun _ _ _ =>
  ⟨exec_init_first, fun _ => exec_init_reset_failed, fun _ => exec_init_boot_delay, fun _ => exec_init_identify,
    fun _ _ => exec_init_partId, fun _ _ => exec_init_read_failed, fun _ _ => exec_init_mismatched,
    fun _ _ => exec_init_matched⟩

/-! ## `START` -/

section
variable {s : State} {l : Locals} {o : Option Outstanding}

theorem exec_start_retrigger (h : AtStep s 1 l o) (hr : s.initState = .ready) (hp : s.convPending = true) :
    exec .start s = .next (raiseFault .retrigger s) := by
  simp only [exec, execStart, h.stepIndex_eq, hp, if_true]
  exact prologue_pass _ hr rfl

theorem exec_start_first (h : AtStep s 1 l o) (hr : s.initState = .ready) (hp : s.convPending = false) :
    exec .start s = triggerIssue 0 s (startDone s) := by
  simp only [exec, execStart, h.stepIndex_eq, hp, Bool.false_eq_true, if_false]
  exact prologue_pass _ hr rfl

theorem exec_start_trigger {j : Nat} (h : AtStep s (j + 2) l o) (hj : j < s.params.triggerWrites.length) :
    exec .start s = triggerStep j s (startDone s) := by
  simp only [exec, execStart, h.stepIndex_eq, if_pos hj]

end

/-- Settles O17: a pending conversion is a fault; else the writes go on to the first failure or to the last one's
acknowledgement. -/
theorem startFollowsItsSteps : Obligations.StartFollowsItsSteps := by
  intro s l
  refine ⟨exec_start_retrigger, ?first, ?empty, ?failed, ?more, ?last⟩
  case first =>
    intro a v h hr hp hw
    rw [exec_start_first h hr hp, triggerIssue_of_write hw, h.stepLocals_eq]
    rfl
  case empty =>
    intro h hr hp hw
    rw [exec_start_first h hr hp, triggerIssue_of_no_write (by simp [hw])]
    rfl
  case failed =>
    intro r j h hj
    rw [exec_start_trigger h hj, h.triggerStep_failed]
    rfl
  case more =>
    intro r j a v h hw
    have hj : j + 1 < s.params.triggerWrites.length := (List.getElem?_eq_some_iff.1 hw).1
    rw [exec_start_trigger h (by omega), h.triggerStep_ok, triggerIssue_of_write hw, h.stepLocals_eq]
    rfl
  case last =>
    intro r j h hj
    rw [exec_start_trigger h (by omega), h.triggerStep_ok, triggerIssue_of_no_write hj.ge]
    rfl

/-! ## `READ` -/

section
variable {s : State} {l : Locals} {o : Option Outstanding}

theorem exec_read_early (h : AtStep s 1 l o) (hr : s.initState = .ready) (hp : s.convPending = true)
    (he : s.waitAcc.toNat < s.params.tConvMs.toNat) : exec .read s = .next (raiseFault .earlyRead s) := by
  have hnot : convElapsed s = false := by simp [convElapsed, he]
  simp only [exec, execRead, h.stepIndex_eq, hp, hnot]
  exact prologue_pass _ hr rfl

theorem exec_read_first (h : AtStep s 1 l o) (hr : s.initState = .ready)
    (he : s.convPending = false ∨ s.params.tConvMs.toNat ≤ s.waitAcc.toNat) :
    exec .read s = .next (issue (firstReadRequest s.params) 2 l s) := by
  have hpass : (s.convPending && !convElapsed s) = false := by
    rcases he with hp | hle
    · simp [hp]
    · simp [convElapsed, hle]
  simp only [exec, execRead, h.stepIndex_eq, hpass, Bool.false_eq_true, if_false, readIssue_eq, h.stepLocals_eq]
  exact prologue_pass _ hr rfl

theorem exec_read_second (h : AtStep s 2 l o) : exec .read s = readFirst 1 s := by
  simp only [exec, execRead, h.stepIndex_eq]

theorem exec_read_third (h : AtStep s 3 l o) : exec .read s = readSecond s := by
  simp only [exec, execRead, h.stepIndex_eq]

end

/-- Settles O19: the check of the conversion time, then the reads of the read mode and the finishing step. -/
theorem readFollowsItsSteps : Obligations.ReadFollowsItsSteps := by
  intro s l
  refine ⟨exec_read_early, exec_read_first, ?firstRead, ?secondRead, ?bothRead⟩
  case firstRead =>
    intro r ok bytes h hm
    rw [exec_read_second h, h.readFirst_split hm]
    rfl
  case secondRead =>
    intro r okH bytes h hm
    rw [exec_read_third h, h.readSecond_split hm, finishReadings_eq]
    rfl
  case bothRead =>
    intro r ok bytes h hm
    rw [exec_read_second h, h.readFirst_combined hm]
    simp only [finishReadings_eq, and_self]
    rfl

/-! ## `MEASURE` -/

section
variable {s : State} {l : Locals} {o : Option Outstanding}

theorem exec_measure_retrigger (h : AtStep s 1 l o) (hr : s.initState = .ready) (hp : s.convPending = true) :
    exec .measure s = .next (raiseFault .retrigger s) := by
  simp only [exec, execMeasure, h.stepIndex_eq, hp, if_true]
  exact prologue_pass _ hr rfl

theorem exec_measure_first (h : AtStep s 1 l o) (hr : s.initState = .ready) (hp : s.convPending = false) :
    exec .measure s = triggerIssue 0 s (measureTriggered s) := by
  simp only [exec, execMeasure, h.stepIndex_eq, hp, Bool.false_eq_true, if_false]
  exact prologue_pass _ hr rfl

theorem exec_measure_trigger {j : Nat} (h : AtStep s (j + 2) l o) (hj : j < s.params.triggerWrites.length) :
    exec .measure s = triggerStep j s (measureTriggered s) := by
  simp only [exec, execMeasure, h.stepIndex_eq, if_pos hj]

theorem exec_measure_delayed {n : Nat} {r : Request} (h : AtStep s (n + 2) l (answered r .done))
    (hn : s.params.triggerWrites.length = n) :
    exec .measure s = .next (issue (firstReadRequest s.params) (n + 3) l s) := by
  simp only [exec, execMeasure, h.stepIndex_eq, hn, lt_irrefl, if_true, if_false, h.onDone_eq, readIssue_eq,
    h.stepLocals_eq]

theorem exec_measure_firstRead {n : Nat} (h : AtStep s (n + 3) l o) (hn : s.params.triggerWrites.length = n) :
    exec .measure s = readFirst (n + 2) s := by
  simp [exec, execMeasure, h.stepIndex_eq, hn]

theorem exec_measure_secondRead {n : Nat} (h : AtStep s (n + 4) l o) (hn : s.params.triggerWrites.length = n) :
    exec .measure s = readSecond s := by
  simp [exec, execMeasure, h.stepIndex_eq, hn]

/-- An acknowledged trigger is followed by the mandatory wait (R139). -/
theorem AtStep.measureTriggered_ok {k n : Nat} (h : AtStep s k l o) (hn : s.params.triggerWrites.length = n) :
    measureTriggered s true = .next (issue (.delay s.params.tConvMs) (n + 2) l s) := by
  rw [measureTriggered, h.stepLocals_eq, hn]
  rfl

end

/-- Settles O20: a pending conversion is a fault; else the trigger writes, the mandatory wait, the reads of the read mode and
the finishing step. -/
theorem measureFollowsItsSteps : Obligations.MeasureFollowsItsSteps := by
  intro s l n hn
  refine ⟨exec_measure_retrigger, ?first, ?failed, ?more, ?triggered, fun _ h => exec_measure_delayed h hn, ?firstRead,
    ?secondRead, ?bothRead⟩
  case first =>
    intro a v h hr hp hw
    rw [exec_measure_first h hr hp, triggerIssue_of_write hw, h.stepLocals_eq]
    rfl
  case failed =>
    intro r j h hj
    rw [exec_measure_trigger h (hn ▸ hj), h.triggerStep_failed]
    rfl
  case more =>
    intro r j a v h hw
    have hj : j + 1 < s.params.triggerWrites.length := (List.getElem?_eq_some_iff.1 hw).1
    rw [exec_measure_trigger h (by omega), h.triggerStep_ok, triggerIssue_of_write hw, h.stepLocals_eq]
    rfl
  case triggered =>
    rintro r (⟨h, h0⟩ | ⟨h, hr, hp, h0⟩)
    · obtain ⟨j, rfl⟩ := Nat.exists_eq_succ_of_ne_zero h0
      rw [exec_measure_trigger h (by omega), h.triggerStep_ok, triggerIssue_of_no_write hn.le, h.measureTriggered_ok hn]
      rfl
    · rw [exec_measure_first h hr hp, triggerIssue_of_no_write (by omega), h.measureTriggered_ok hn]
      rfl
  case firstRead =>
    intro r ok bytes h hm
    rw [exec_measure_firstRead h hn, h.readFirst_split hm]
    rfl
  case secondRead =>
    intro r okH bytes h hm
    rw [exec_measure_secondRead h hn, h.readSecond_split hm, finishReadings_eq]
    rfl
  case bothRead =>
    intro r ok bytes h hm
    rw [exec_measure_firstRead h hn, h.readFirst_combined hm]
    simp only [finishReadings_eq, and_self]
    rfl

/-! ## A placed word -/

theorem decode_of_decodeTableWord {nbits w : Nat} {i : Instr} (h : decodeTableWord nbits w = some i) :
    decode (BitVec.ofNat 32 (w % 2 ^ nbits)) = .ok i := by
  unfold decodeTableWord at h
  split at h
  · rename_i hd
    rw [hd, Option.some.inj h]
  · cases h

/-- Settles O8: the placed word is latched in a block with nothing asked, no fault and no scripted move, so the step is the
sequencer's. -/
theorem placedWordRunsAtTheNextStep : Obligations.PlacedWordRunsAtTheNextStep := by
  intro s w i h
  obtain ⟨-, unscripted⟩ := stepRunsTheDecodedCommand (s.withFetchWord 32 w) i _ 1 Locals.start rfl rfl
    (by rintro _ ⟨⟩) (decode_of_decodeTableWord h)
  exact unscripted rfl

end Sys2Proof.Machine
end

section
/-! PROOFS. Whole runs of `INIT` and `MEASURE` from a block at rest (40_protocol.md R130, R132, R139). -/

namespace Sys2Proof.Machine

/-! ## The states of a running command -/

/-- The block `s` with the word `w` and its operand latched (R43, R130). -/
def latched (w : Word) (s : State) : State := { s with curCmd := w, curArg := s.arg0, busy := true }

/-- The running command of `b` at step `k`; while it runs, only these three fields change. -/
def running (b : State) (script : List Move) (k : Nat) (l : Locals) (o : Option Outstanding) : State :=
  { b with script := script, phase := .exec (opcodeField b.curCmd) k l, outstanding := o }

theorem running_atStep (b : State) (script : List Move) (k : Nat) (l : Locals) (o : Option Outstanding) :
    AtStep (running b script k l o) k l o :=
  ⟨⟨_, rfl⟩, rfl⟩

/-- No answer is awaited. -/
def Settled (o : Option Outstanding) : Prop := ∀ r, o ≠ some { request := r, answer := none }

theorem settled_none : Settled none := by
  rintro r ⟨⟩

theorem settled_answered (r : Request) (a : Answer) : Settled (answered r a) := by
  rintro r' ⟨⟩

/-- The command `i` is latched in `b`, and `b` has no fault. -/
structure Runs (i : Instr) (b : State) : Prop where
  no_fault : b.faulted = none
  decoded : decode b.curCmd = .ok i

theorem AtRest.runs_latched {s : State} {w : Word} {i : Instr} (h : AtRest s) (hd : decode w = .ok i) :
    Runs i (latched w s) :=
  ⟨h.no_fault, hd⟩

/-! ## Runs of a command -/

/-- A word written to `CMD` of a block at rest is at its first step (R130). -/
theorem run_accept {s : State} {w : Word} {rest : List Move} (n : Nat) (h : AtRest s)
    (hs : s.script = .host (.write 0x00#6 32 w) :: rest) :
    Sys2Proof.core.run (n + 1) s = Sys2Proof.core.run n (running (latched w s) rest 1 Locals.start none) := by
  have hstep : step s = .next (acceptCommand w { s with script := rest }) :=
    (step_host_write (r := .cmd) h.no_fault hs).trans (congrArg _ (writeReg_cmd_idle w h.not_busy))
  have hstate : acceptCommand w { s with script := rest } = running (latched w s) rest 1 Locals.start none := by
    simp only [acceptCommand, running, latched, h.quiet]
  rw [run_succ n hstep, hstate]

section
variable {b : State} {script : List Move} {k : Nat} {l : Locals} {o : Option Outstanding} {i : Instr}
  (hb : Runs i b) (ho : Settled o)
include hb ho

theorem step_running :
    step (running b (.sequencer :: script) k l o) = exec i (running b script k l o) := by
  obtain ⟨scripted, -⟩ := stepRunsTheDecodedCommand (running b (.sequencer :: script) k l o) i _ k l hb.no_fault rfl ho
    hb.decoded
  exact scripted script rfl

/-- The sequencer issues a request and its agent answers it. -/
theorem run_request {m : Move} {f : Request → Option Answer} {r : Request} {a : Answer} {k' : Nat} {l' : Locals}
    (n : Nat) (hexec : AtStep (running b (m :: script) k l o) k l o →
      exec i (running b (m :: script) k l o) = .next (issue r k' l' (running b (m :: script) k l o)))
    (hm : Answering m f) (ha : f r = some a) :
    Sys2Proof.core.run (n + 2) (running b (.sequencer :: m :: script) k l o) =
      Sys2Proof.core.run n (running b script k' l' (answered r a)) := by
  have hissue := (step_running hb ho).trans (hexec (running_atStep ..))
  have hanswer := step_answer_recorded (s := issue r k' l' (running b (m :: script) k l o)) hm hb.no_fault rfl rfl ha
  rw [run_succ _ hissue, run_succ _ hanswer]
  rfl

/-- The sequencer's last step. -/
theorem run_last {t : State} (hexec : AtStep (running b script k l o) k l o → exec i (running b script k l o) = .next t) :
    Sys2Proof.core.run 1 (running b (.sequencer :: script) k l o) = .next t := by
  rw [run_succ 0 ((step_running hb ho).trans (hexec (running_atStep ..))), run_zero]

end

/-! ## `INIT` -/

/-- The word that spells `INIT` or `INIT.DEF` (30_encoding.md R92). -/
def initWord (d : Bool) : Word := if d then 0x00000101#32 else 0x00000001#32

theorem decode_initWord (d : Bool) : decode (initWord d) = .ok (.init d) := by
  cases d <;> decide

theorem opcodeField_initWord (d : Bool) : opcodeField (initWord d) = 1#4 := by
  cases d <;> decide

/-- The locals of `INIT` once it has read the part identifier. -/
def initLocals (s : State) (d : Bool) (pid : List Byte) : Locals :=
  { Locals.start with
    offset := if d then s.params.defaultOffset else s.arg0
    partId := BitVec.ofNat 16 (le pid) }

/-- Up to its last step `INIT` has written no register. -/
theorem run_init_transactions {s : State} {d : Bool} {pid uid : List Byte} {rest : List Move} (h : AtRest s)
    (hb : s.params.initBootDelayMs = 0#24) (hp : pid.length = s.params.partIdBytes)
    (hu : uid.length = s.params.uidBytes)
    (hs : s.script = .host (.write 0x00#6 32 (initWord d)) :: .sequencer :: .bus true [] :: .sequencer ::
      .bus true pid :: .sequencer :: .bus true uid :: .sequencer :: rest) :
    Sys2Proof.core.run 8 s =
      Sys2Proof.core.run 1 (running (latched (initWord d) s) (.sequencer :: rest) 5 (initLocals s d pid)
        (answered (.busRead s.params.regUid s.params.uidBytes) (.data true uid))) := by
  have hruns := h.runs_latched (decode_initWord d)
  rw [run_accept 7 h hs,
    run_request hruns settled_none 5 exec_init_first (answering_bus true []) rfl,
    run_request hruns (settled_answered _ _) 3
      (fun hat => exec_init_identify (.inl ⟨hat, hb⟩)) (answering_bus true pid) (if_pos hp),
    run_request hruns (settled_answered _ _) 1
      exec_init_partId (answering_bus true uid) (if_pos hu)]
  rfl

/-- Settles O21: the three transactions bring `INIT` to its last step, which compares the part identifier. -/
theorem initRunsToItsEnd : Obligations.InitRunsToItsEnd := by
  intro s d pid uid rest h hb hp hu hs expected
  have hruns := h.runs_latched (decode_initWord d)
  rw [run_init_transactions (rest := rest) h hb hp hu hs]
  by_cases he : expected
  · rw [run_last hruns (settled_answered _ _) (fun hat => exec_init_matched hat he)]
    simp only [finish, clearConversion, commitIdentity, running, latched, initLocals, opcodeField_initWord, he, if_true,
      h.phase_idle, h.not_busy, h.quiet]
    rfl
  · rw [run_last hruns (settled_answered _ _) (fun hat => exec_init_mismatched hat he)]
    simp only [finish, failInit, clearConversion, commitIdentity, running, latched, initLocals, opcodeField_initWord, he,
      if_false, h.phase_idle, h.not_busy, h.quiet]
    rfl

/-! ## `MEASURE` -/

/-- What stands in `S[OUTSTANDING]` after the first `j` trigger writes, all acknowledged. -/
def ackedWrites (p : Params) : Nat → Option Outstanding
  | 0 => none
  | j + 1 => (triggerRequest p j).bind fun r => answered r (.ack true)

theorem ackedWrites_succ {p : Params} {j : Nat} {w : Byte × Byte} (hw : p.triggerWrites[j]? = some w) :
    ackedWrites p (j + 1) = answered (.busWrite w.1 w.2) (.ack true) := by
  simp [ackedWrites, triggerRequest, hw]

theorem settled_ackedWrites (p : Params) (j : Nat) : Settled (ackedWrites p j) := by
  cases j with
  | zero => exact settled_none
  | succ j =>
    cases hr : triggerRequest p j with
    | none => simpa [ackedWrites, hr] using settled_none
    | some r => simpa [ackedWrites, hr] using settled_answered r (.ack true)

section
variable {s : State} {l : Locals}

/-- After `j` acknowledged writes comes write `j`, whether or not it is the first (R140). -/
theorem exec_measure_write {j : Nat} {w : Byte × Byte} (h : AtStep s (j + 1) l (ackedWrites s.params j))
    (hr : s.initState = .ready) (hp : s.convPending = false) (hw : s.params.triggerWrites[j]? = some w) :
    exec .measure s = .next (issue (.busWrite w.1 w.2) (j + 2) l s) := by
  obtain ⟨-, first, -, more, -⟩ := measureFollowsItsSteps s l _ rfl
  cases j with
  | zero => exact first _ _ h hr hp hw
  | succ j =>
    have hj : j + 1 < s.params.triggerWrites.length := (List.getElem?_eq_some_iff.1 hw).1
    rw [ackedWrites_succ (List.getElem?_eq_getElem (Nat.lt_of_succ_lt hj))] at h
    exact more _ j _ _ h hw

/-- After all its writes comes the mandatory wait, also when there are none (R139; log 15). -/
theorem exec_measure_wait {n : Nat} (h : AtStep s (n + 1) l (ackedWrites s.params n)) (hr : s.initState = .ready)
    (hp : s.convPending = false) (hn : s.params.triggerWrites.length = n) :
    exec .measure s = .next (issue (.delay s.params.tConvMs) (n + 2) l s) := by
  obtain ⟨-, -, -, -, triggered, -⟩ := measureFollowsItsSteps s l n hn
  cases n with
  | zero => exact triggered (.delay 0#24) (.inr ⟨h, hr, hp, rfl⟩)
  | succ j =>
    rw [ackedWrites_succ (List.getElem?_eq_getElem (hn ▸ Nat.lt_succ_self j))] at h
    exact triggered _ (.inl ⟨h, Nat.succ_ne_zero j⟩)

end

/-- The last `m` of the trigger writes, the `j` before them acknowledged; by induction on `m`. -/
theorem run_measure_writes {b : State} (hb : Runs .measure b) (hr : b.initState = .ready) (hp : b.convPending = false)
    (l : Locals) (rest : List Move) (c m : Nat) {j : Nat} (hm : j + m = b.params.triggerWrites.length) :
    Sys2Proof.core.run (2 * m + c) (running b ((List.replicate m [Move.sequencer, Move.bus true []]).flatten ++ rest)
        (j + 1) l (ackedWrites b.params j)) =
      Sys2Proof.core.run c (running b rest (b.params.triggerWrites.length + 1) l
        (ackedWrites b.params b.params.triggerWrites.length)) := by
  induction m generalizing j with
  | zero =>
    obtain rfl : j = b.params.triggerWrites.length := hm
    simp
  | succ m ih =>
    have hw := List.getElem?_eq_getElem (show j < b.params.triggerWrites.length by omega)
    rw [← ih (j := j + 1) (by omega), ackedWrites_succ hw, show 2 * (m + 1) + c = 2 * m + c + 2 by omega]
    exact run_request hb (settled_ackedWrites _ j) _ (fun hat => exec_measure_write hat hr hp hw)
      (answering_bus true []) rfl

/-- The locals of `MEASURE` once it has read the temperature word. -/
def measureLocals (okT : Bool) (bT : List Byte) : Locals :=
  { Locals.start with tOk := okT, tWord := BitVec.ofNat 32 (le bT) }

/-- The mandatory wait and the two reads bring `MEASURE` to its last step. -/
theorem run_measure_reads {b : State} {okT okH : Bool} {bT bH : List Byte} {rest : List Move} {n : Nat}
    (hb : Runs .measure b) (hr : b.initState = .ready) (hp : b.convPending = false) (hm : b.params.readMode = .split)
    (hT : bT.length = wordBytes b.params.layout) (hH : bH.length = wordBytes b.params.layout)
    (hn : b.params.triggerWrites.length = n) :
    Sys2Proof.core.run 7 (running b (.sequencer :: .delayDone :: .sequencer :: .bus okT bT :: .sequencer ::
        .bus okH bH :: .sequencer :: rest) (n + 1) Locals.start (ackedWrites b.params n)) =
      Sys2Proof.core.run 1 (running b (.sequencer :: rest) (n + 4) (measureLocals okT bT)
        (answered (.busRead b.params.regHVal (wordBytes b.params.layout)) (.data okH bH))) := by
  have hlen : bT.length =
      if b.params.readMode = .split then wordBytes b.params.layout else 2 * wordBytes b.params.layout := by
    rw [if_pos hm, hT]
  rw [run_request hb (settled_ackedWrites _ n) 5 (fun hat => exec_measure_wait hat hr hp hn) answering_delayDone rfl,
    run_request hb (settled_answered _ _) 3 (fun hat => exec_measure_delayed hat hn) (answering_bus okT bT)
      (if_pos hlen),
    run_request hb (settled_answered _ _) 1
      (fun hat => (exec_measure_firstRead hat hn).trans (hat.readFirst_split hm (n + 2)))
      (answering_bus okH bH) (if_pos hH)]
  rfl

/-- Settles O22: after the trigger writes, by induction on their number, the mandatory wait and the two reads bring `MEASURE`
to its finishing step. -/
theorem measureRunsToItsReadings : Obligations.MeasureRunsToItsReadings := by
  intro s okT okH bT bH rest h hr hp hm hT hH hs
  have hruns : Runs .measure (latched 0x00000008#32 s) := h.runs_latched (by decide)
  have accept := run_accept (2 * s.params.triggerWrites.length + 7) h hs
  have writes := run_measure_writes hruns hr hp Locals.start ([.sequencer, .delayDone, .sequencer, .bus okT bT, .sequencer,
    .bus okH bH, .sequencer] ++ rest) 7 s.params.triggerWrites.length (Nat.zero_add _)
  have reads := run_measure_reads (okT := okT) (okH := okH) (rest := rest) hruns hr hp hm hT hH rfl
  have last := run_last (script := rest) (k := s.params.triggerWrites.length + 4) hruns
    (settled_answered (.busRead s.params.regHVal (wordBytes s.params.layout)) (.data okH bH))
    fun hat => (exec_measure_secondRead hat rfl).trans (hat.readSecond_split (l := measureLocals okT bT) hm)
  refine (accept.trans (writes.trans (reads.trans last))).trans ?_
  simp only [finishReadings_eq, finish, running, latched, measureLocals, leWord, h.phase_idle, h.not_busy, h.quiet]
  rfl

end Sys2Proof.Machine
end

section
/-! PROOFS. The Data Validator (41_validator.md): the bits of its fields, the check code as a remainder over GF(2), and
the classification of a word. -/

namespace Sys2Proof.Machine

/-! ## Fields -/

/-- Bit `k` of a field (R180). -/
theorem getLsbD_bitField (v : Word) (lsb w k : Nat) :
    (bitField v lsb w).getLsbD k = (decide (k < w) && v.getLsbD (lsb + k)) := by
  rw [bitField, BitVec.getLsbD_and, BitVec.getLsbD_ushiftRight, BitVec.getLsbD_ofNat, Nat.testBit_two_pow_sub_one]
  by_cases hk : k < 32
  · simp [hk, Bool.and_comm]
  · simp [BitVec.getLsbD_of_ge v (lsb + k) (by omega)]

theorem bitField_toNat (v : Word) (lsb w : Nat) : (bitField v lsb w).toNat = v.toNat / 2 ^ lsb % 2 ^ w := by
  apply Nat.eq_of_testBit_eq
  intro k
  rw [Nat.testBit_mod_two_pow, Nat.testBit_div_two_pow, Nat.add_comm k lsb]
  exact getLsbD_bitField v lsb w k

theorem bitField_congr {v v' : Word} {lsb w : Nat} (h : ∀ k, k < w → v.getLsbD (lsb + k) = v'.getLsbD (lsb + k)) :
    bitField v lsb w = bitField v' lsb w := by
  apply BitVec.eq_of_getLsbD_eq
  intro k _
  rw [getLsbD_bitField, getLsbD_bitField]
  by_cases hk : k < w
  · rw [h k hk]
  · simp [hk]

theorem bitField_xor (v v' : Word) (lsb w : Nat) : bitField (v ^^^ v') lsb w = bitField v lsb w ^^^ bitField v' lsb w := by
  apply BitVec.eq_of_getLsbD_eq
  intro k _
  simp only [getLsbD_bitField, BitVec.getLsbD_xor, Bool.and_xor_distrib_left]

theorem getLsbD_one_shiftLeft (i k : Nat) : (1#32 <<< i).getLsbD k = (decide (i < 32) && decide (i = k)) := by
  rw [← BitVec.twoPow_eq, BitVec.getLsbD_twoPow]

/-- A single bit outside a field does not show in it. -/
theorem bitField_one_shiftLeft_of_outside {i lsb w : Nat} (h : i < lsb ∨ lsb + w ≤ i) :
    bitField (1#32 <<< i) lsb w = 0#32 := by
  apply BitVec.eq_of_getLsbD_eq
  intro k _
  rw [getLsbD_bitField, getLsbD_one_shiftLeft, BitVec.getLsbD_zero]
  have hki : ¬(k < w ∧ i = lsb + k) := by omega
  simp only [Bool.and_eq_false_iff, decide_eq_false_iff_not]
  tauto

/-- A single bit inside a field is its bit counted from `lsb`. -/
theorem bitField_one_shiftLeft_of_inside {i lsb w : Nat} (hlo : lsb ≤ i) (hhi : i < lsb + w) (hi : i < 32) :
    bitField (1#32 <<< i) lsb w = 1#32 <<< (i - lsb) := by
  apply BitVec.eq_of_getLsbD_eq
  intro k hk
  rw [getLsbD_bitField, getLsbD_one_shiftLeft, getLsbD_one_shiftLeft]
  by_cases hki : i - lsb = k
  · simp [show k < w by omega, show i = lsb + k by omega, show lsb + k < 32 by omega, hk]
  · simp [hki, show i ≠ lsb + k by omega]

theorem one_shiftLeft_ne_zero {i : Nat} (hi : i < 32) : 1#32 <<< i ≠ 0#32 := by
  intro h
  have hbit := getLsbD_one_shiftLeft i i
  simp [h, hi] at hbit

/-- Settles O25: each field is the quotient by its position's weight, modulo that of its width. -/
theorem fieldsAreTheLayoutsBits : Obligations.FieldsAreTheLayoutsBits := by
  intro mw
  simp [dataField, validField, codeField, payloadField, bitField_toNat, dataW, validW, codeW, payloadW, validLsb, codeLsb]

/-! ## Classification -/

theorem classify_eq_crcError_iff (p : Params) (mw : Word) :
    classify p mw = .crcError ↔
      (crc7 p.crcPoly p.crcInit (payloadField p.layout mw) (payloadW p.layout)).setWidth 32 ≠ codeField p.layout mw := by
  unfold classify
  split
  case isTrue h => simpa using h
  case isFalse h => split <;> simpa using h

/-- The classification reads the fields of a word only (R183). -/
theorem classify_congr {p : Params} {mw mw' : Word} (hp : payloadField p.layout mw = payloadField p.layout mw')
    (hv : validField p.layout mw = validField p.layout mw') (hc : codeField p.layout mw = codeField p.layout mw') :
    classify p mw = classify p mw' := by
  simp only [classify, hp, hv, hc]

/-- Settles O24: the two checks in the order of R183. -/
theorem classificationIsInPriorityOrder : Obligations.ClassificationIsInPriorityOrder := by
  intro p mw code valid
  refine ⟨(classify_eq_crcError_iff p mw).2, fun hcode hvalid => ?_, fun hcode hvalid => ?_⟩
  · rw [classify, if_neg (not_not.2 hcode), if_pos (by simpa [isValid] using hvalid)]
  · rw [classify, if_neg (not_not.2 hcode), if_neg (by simpa [isValid] using hvalid)]

/-- Settles O26: every field lies below `USED_W`. -/
theorem unusedBitsAreIgnored : Obligations.UnusedBitsAreIgnored := by
  intro p mw mw' h
  have field {lsb w : Nat} (hw : lsb + w ≤ usedW p.layout) : bitField mw lsb w = bitField mw' lsb w :=
    bitField_congr fun k hk => h (lsb + k) (by omega)
  have hdata : dataW p.layout ≤ payloadW p.layout := Nat.le_add_right ..
  have hpayload : payloadW p.layout ≤ usedW p.layout := Nat.le_add_right ..
  exact ⟨field (by omega), classify_congr (field (by omega)) (field hpayload) (field le_rfl)⟩

/-- Settles O23: in a `READY` block the prologue passes to the body, whose commit group is the extracted pair. -/
theorem validateWritesDataAndStatus : Obligations.ValidateWritesDataAndStatus := by
  intro s l h hr
  simp only [exec, execValidate, h.stepIndex_eq]
  exact prologue_pass _ hr rfl

/-! ## Bit vectors as polynomials over GF(2) -/

section
open Polynomial

theorem coeff_toPoly {w : Nat} (v : BitVec w) (k : Nat) : (toPoly v).coeff k = if v.getLsbD k then 1 else 0 := by
  have hterm (i : Nat) : (if v.getLsbD i then (X : (ZMod 2)[X]) ^ i else 0).coeff k =
      if k = i then (if v.getLsbD k then 1 else 0) else 0 := by
    by_cases hki : k = i
    · subst hki
      split <;> simp
    · split <;> simp [coeff_X_pow, hki]
  simp only [toPoly, finsetSum_coeff, hterm, Finset.sum_ite_eq, Finset.mem_range]
  by_cases hk : k < w
  · simp [hk]
  · simp [hk, BitVec.getLsbD_of_ge v k (by omega)]

theorem degree_toPoly_lt_iff {w : Nat} (v : BitVec w) (n : Nat) :
    (toPoly v).degree < n ↔ ∀ k, n ≤ k → v.getLsbD k = false := by
  simp [degree_lt_iff_coeff_zero, coeff_toPoly]

theorem degree_toPoly_lt {w : Nat} (v : BitVec w) : (toPoly v).degree < w :=
  (degree_toPoly_lt_iff v w).2 fun k hk => BitVec.getLsbD_of_ge v k hk

theorem degree_toPoly_lt_of_toNat_lt {w n : Nat} {v : BitVec w} (h : v.toNat < 2 ^ n) : (toPoly v).degree < n :=
  (degree_toPoly_lt_iff v n).2 fun _ hk => Nat.testBit_lt_two_pow (h.trans_le (Nat.pow_le_pow_right Nat.two_pos hk))

theorem toPoly_xor {w : Nat} (a b : BitVec w) : toPoly (a ^^^ b) = toPoly a + toPoly b := by
  ext k
  rw [coeff_add, coeff_toPoly, coeff_toPoly, coeff_toPoly, BitVec.getLsbD_xor]
  cases a.getLsbD k <;> cases b.getLsbD k <;> decide

/-- A change of width that cuts off clear bits only. -/
theorem toPoly_setWidth {w m : Nat} {v : BitVec w} (h : (toPoly v).degree < m) : toPoly (v.setWidth m) = toPoly v := by
  ext k
  rw [coeff_toPoly, coeff_toPoly, BitVec.getLsbD_setWidth]
  by_cases hk : k < m
  · simp [hk]
  · simp [hk, (degree_toPoly_lt_iff v m).1 h k (by omega)]

/-- A shift that moves no set bit out is the product with a power of `x`. -/
theorem toPoly_shiftLeft {w m j : Nat} {v : BitVec w} (h : (toPoly v).degree < m) (hw : m + j ≤ w) :
    toPoly (v <<< j) = toPoly v * X ^ j := by
  ext k
  rw [coeff_mul_X_pow', coeff_toPoly, coeff_toPoly, BitVec.getLsbD_shiftLeft]
  by_cases hj : j ≤ k
  · by_cases hk : k < w
    · simp [hj, hk]
    · simp [hj, hk, (degree_toPoly_lt_iff v m).1 h (k - j) (by omega)]
  · simp [hj, show k < j by omega]

theorem toPoly_one_shiftLeft {i : Nat} (hi : i < 32) : toPoly (1#32 <<< i) = X ^ i := by
  ext k
  rw [coeff_toPoly, getLsbD_one_shiftLeft, coeff_X_pow]
  simp [hi, eq_comm (a := i)]

/-! ## The generator -/

section
variable {poly : BitVec 8}

theorem degree_generator (h7 : poly.getLsbD 7 = true) : (toPoly poly).degree = 7 :=
  degree_eq_of_le_of_coeff_ne_zero (Order.le_of_lt_succ (degree_toPoly_lt poly)) (by simp [coeff_toPoly, h7])

theorem monic_generator (h7 : poly.getLsbD 7 = true) : (toPoly poly).Monic :=
  monic_of_degree_le 7 (degree_generator h7).le (by simp [coeff_toPoly, h7])

/-- A generator of degree 7 with a non-zero constant term divides no power of `x` (R187): such a divisor would be a power of
the prime `x` itself. -/
theorem generator_not_dvd_X_pow (h7 : poly.getLsbD 7 = true) (h0 : poly.getLsbD 0 = true) (k : Nat) :
    ¬ toPoly poly ∣ X ^ k := by
  intro hdvd
  obtain ⟨i, -, hassoc⟩ := (dvd_prime_pow prime_X k).1 hdvd
  have hpow : toPoly poly = X ^ i := eq_of_monic_of_associated (monic_generator h7) (monic_X_pow i) hassoc
  obtain rfl : i = 7 := by
    have hdeg := degree_generator h7
    rw [hpow, degree_X_pow] at hdeg
    exact_mod_cast hdeg
  have hconst := congrArg (coeff · 0) hpow
  simp [coeff_toPoly, h0, coeff_X_pow] at hconst

end

/-! ## The check code -/

/-- The multiple of the generator that an iteration subtracts (R182). -/
theorem toPoly_generator_shiftLeft (poly : BitVec 8) {j : Nat} (hj : j + 8 ≤ 32) :
    toPoly (poly.setWidth 32 <<< j) = toPoly poly * X ^ j := by
  have hdeg := degree_toPoly_lt poly
  have hwide : toPoly (poly.setWidth 32) = toPoly poly :=
    toPoly_setWidth (hdeg.trans (by norm_num))
  rw [← hwide] at hdeg ⊢
  exact toPoly_shiftLeft hdeg (by omega)

/-- One iteration of R182. -/
def crcStep (poly : BitVec 8) (j : Nat) (r : Word) : Word :=
  if r.getLsbD (j + 7) then r ^^^ (poly.setWidth 32 <<< j) else r

theorem crcLoop_succ (poly : BitVec 8) (j : Nat) (r : Word) : crcLoop poly (j + 1) r = crcLoop poly j (crcStep poly j r) :=
  rfl

/-- An iteration changes the remainder by a multiple of the generator. -/
theorem dvd_crcStep_sub (poly : BitVec 8) {j : Nat} (hj : j + 8 ≤ 32) (r : Word) :
    toPoly poly ∣ toPoly (crcStep poly j r) - toPoly r := by
  unfold crcStep
  split
  · rw [toPoly_xor, toPoly_generator_shiftLeft poly hj, add_sub_cancel_left]
    exact dvd_mul_right ..
  · simp

/-- An iteration clears the top bit (R182). -/
theorem degree_crcStep_lt {poly : BitVec 8} (h7 : poly.getLsbD 7 = true) {j : Nat} (hj : j + 8 ≤ 32) {r : Word}
    (hr : (toPoly r).degree < (j + 8 : Nat)) : (toPoly (crcStep poly j r)).degree < (j + 7 : Nat) := by
  rw [degree_toPoly_lt_iff] at hr ⊢
  intro k hk
  unfold crcStep
  split
  case isFalse htop =>
    rcases hk.eq_or_lt with rfl | hk
    · simpa using htop
    · exact hr k hk
  case isTrue htop =>
    rw [BitVec.getLsbD_xor, BitVec.getLsbD_shiftLeft, BitVec.getLsbD_setWidth]
    rcases hk.eq_or_lt with rfl | hk
    · rw [htop, Nat.add_sub_cancel_left, h7]
      simp [show j + 7 < 32 by omega]
    · simp [hr k hk, BitVec.getLsbD_of_ge poly (k - j) (by omega)]

/-- The loop of R182 leaves a remainder of degree below 7, congruent to its start modulo the generator. -/
theorem crcLoop_remainder {poly : BitVec 8} (h7 : poly.getLsbD 7 = true) (n : Nat) {r : Word} (hn : n + 7 ≤ 32)
    (hr : (toPoly r).degree < (n + 7 : Nat)) :
    (toPoly (crcLoop poly n r)).degree < (7 : Nat) ∧ toPoly poly ∣ toPoly (crcLoop poly n r) - toPoly r := by
  induction n generalizing r with
  | zero => exact ⟨by simpa [crcLoop] using hr, by simp [crcLoop]⟩
  | succ j ih =>
    have hj : j + 8 ≤ 32 := by omega
    obtain ⟨hdeg, hdvd⟩ := ih (by omega) (degree_crcStep_lt h7 hj hr)
    refine ⟨hdeg, ?_⟩
    rw [crcLoop_succ, ← sub_add_sub_cancel _ (toPoly (crcStep poly j r))]
    exact dvd_add hdvd (dvd_crcStep_sub poly hj r)

/-- The start of the division: the payload with the initial vector appended (R181). -/
theorem toPoly_crcStart (init : BitVec 7) {p : Word} {n : Nat} (hn : n + 7 ≤ 32) (hp : (toPoly p).degree < n) :
    toPoly ((p <<< 7) ||| init.setWidth 32) = toPoly p * X ^ 7 + toPoly init := by
  have hdisjoint : (p <<< 7) ||| init.setWidth 32 = (p <<< 7) ^^^ init.setWidth 32 := by
    apply BitVec.eq_of_getLsbD_eq
    intro k hk
    by_cases hk7 : k < 7
    · simp [hk7]
    · simp [hk7, BitVec.getLsbD_of_ge init k (by omega)]
  have hinit : toPoly (init.setWidth 32) = toPoly init :=
    toPoly_setWidth ((degree_toPoly_lt init).trans (by norm_num))
  rw [hdisjoint, toPoly_xor, toPoly_shiftLeft hp hn, hinit]

theorem degree_crcStart_lt (init : BitVec 7) {p : Word} {n : Nat} (hp : (toPoly p).degree < n) :
    (toPoly ((p <<< 7) ||| init.setWidth 32)).degree < (n + 7 : Nat) := by
  rw [degree_toPoly_lt_iff] at hp ⊢
  intro k hk
  simp [hp (k - 7) (by omega), BitVec.getLsbD_of_ge init k (by omega)]

/-- Settles O27: the loop leaves a polynomial of degree below 7 that differs from its start by a multiple of the generator,
and the remainder is the only one. -/
theorem checkCodeIsThePolynomialRemainder : Obligations.CheckCodeIsThePolynomialRemainder := by
  intro poly init p n h7 hn hlt
  have hp := degree_toPoly_lt_of_toNat_lt hlt
  have hmonic := monic_generator h7
  obtain ⟨hdeg, hdvd⟩ := crcLoop_remainder h7 n hn (degree_crcStart_lt init hp)
  have hself := (modByMonic_eq_self_iff hmonic).2 (hdeg.trans_eq (degree_generator h7).symm)
  rw [crc7, toPoly_setWidth hdeg, ← toPoly_crcStart init hn hp, ← hself]
  exact modByMonic_eq_of_dvd_sub hmonic hdvd

/-! ## Single-bit errors -/

/-- A flip in the payload changes the check code by `x^(i+7)` modulo the generator, which is not zero (R187). -/
theorem crc7_flip_ne {poly : BitVec 8} (h7 : poly.getLsbD 7 = true) (h0 : poly.getLsbD 0 = true) (init : BitVec 7)
    {p : Word} {n i : Nat} (hn : n + 7 ≤ 32) (hi : i < 32) (hp : p.toNat < 2 ^ n)
    (hp' : (p ^^^ (1#32 <<< i)).toNat < 2 ^ n) :
    crc7 poly init (p ^^^ (1#32 <<< i)) n ≠ crc7 poly init p n := by
  intro heq
  have hmod := congrArg toPoly heq
  rw [checkCodeIsThePolynomialRemainder poly init _ n h7 hn hp', checkCodeIsThePolynomialRemainder poly init p n h7 hn hp,
    toPoly_xor, toPoly_one_shiftLeft hi, ← sub_eq_zero, ← sub_modByMonic,
    modByMonic_eq_zero_iff_dvd (monic_generator h7)] at hmod
  have hdiff : (toPoly p + X ^ i) * X ^ 7 + toPoly init - (toPoly p * X ^ 7 + toPoly init) = X ^ (i + 7) := by ring
  exact generator_not_dvd_X_pow h7 h0 (i + 7) (hdiff ▸ hmod)

end

/-- A payload and its check code fit in a word, as R182 asks. -/
theorem payloadW_add_seven_le_and_usedW_le (l : Layout) : payloadW l + 7 ≤ 32 ∧ usedW l ≤ 32 := by
  cases l <;> decide

/-- A flip in the payload leaves the code field alone. -/
theorem fields_flip_payload {l : Layout} {i : Nat} (mw : Word) (hi : i < payloadW l) :
    payloadField l (mw ^^^ (1#32 <<< i)) = payloadField l mw ^^^ (1#32 <<< i) ∧
      codeField l (mw ^^^ (1#32 <<< i)) = codeField l mw := by
  have h32 := (payloadW_add_seven_le_and_usedW_le l).1
  constructor
  · rw [payloadField, bitField_xor, bitField_one_shiftLeft_of_inside (Nat.zero_le i) (by omega) (by omega)]
    rfl
  · rw [codeField, bitField_xor, bitField_one_shiftLeft_of_outside (.inl (show i < codeLsb l from hi)), BitVec.xor_zero]
    rfl

/-- A flip in the code field leaves the payload alone. -/
theorem fields_flip_code {l : Layout} {i : Nat} (mw : Word) (hlo : payloadW l ≤ i) (hhi : i < usedW l) :
    payloadField l (mw ^^^ (1#32 <<< i)) = payloadField l mw ∧ codeField l (mw ^^^ (1#32 <<< i)) ≠ codeField l mw := by
  have h32 := (payloadW_add_seven_le_and_usedW_le l).2
  constructor
  · rw [payloadField, bitField_xor, bitField_one_shiftLeft_of_outside (.inr (by omega)), BitVec.xor_zero]
    rfl
  · rw [codeField, bitField_xor, bitField_one_shiftLeft_of_inside (show codeLsb l ≤ i from hlo) hhi (by omega), codeField]
    exact fun h => one_shiftLeft_ne_zero (by omega) ((BitVec.xor_right_inj _).1 (h.trans BitVec.xor_zero.symm))

/-- Settles O28: a flip in the payload changes the recomputed code alone, and one in the code field the transmitted code
alone. -/
theorem singleBitErrorsAreDetected : Obligations.SingleBitErrorsAreDetected := by
  intro p mw i hpoly hi hok
  have hcode := not_not.1 (mt (classify_eq_crcError_iff p mw).2 hok)
  rw [classify_eq_crcError_iff]
  rcases lt_or_ge i (payloadW p.layout) with hpayload | hpayload
  · obtain ⟨hp, hc⟩ := fields_flip_payload mw hpayload
    have hn := (payloadW_add_seven_le_and_usedW_le p.layout).1
    have hlt (v : Word) : (payloadField p.layout v).toNat < 2 ^ payloadW p.layout := bitField_lt v 0 _
    have hne := crc7_flip_ne (poly := p.crcPoly) (by rw [hpoly]; decide) (by rw [hpoly]; decide) p.crcInit hn (by omega)
      (hlt mw) (hp ▸ hlt _)
    rw [hp, hc, ← hcode]
    exact fun h => hne (by simpa using congrArg (BitVec.setWidth 7) h)
  · obtain ⟨hp, hc⟩ := fields_flip_code mw hpayload hi
    rw [hp, hcode]
    exact hc.symm

end Sys2Proof.Machine
end

section
/-! PROOFS. The Unit Converter (42_converter.md): what the rounding division does, the value each conversion computes and
how far it is from the affine value, the width it needs, and the step of the four conversion commands. -/

namespace Sys2Proof.Machine

/-! ## The rounding division -/

theorem rdiv_neg (n : Int) (d : Nat) : rdiv (-n) d = -rdiv n d := by
  simp [rdiv]

/-- R211's formula, its absolute value taken in the integers. -/
theorem rdiv_eq (n : Int) (d : Nat) : rdiv n d = n.sign * ((2 * |n| + d) / (2 * d)) := by
  simp [rdiv]

/-- At a numerator that is not negative, R211's formula is the floor alone: at 0 the floor is 0 too. -/
theorem rdiv_natCast (n : Nat) {d : Nat} (hd : 0 < d) : rdiv n d = (2 * n + d) / (2 * d) := by
  rcases n.eq_zero_or_pos with rfl | hn
  · have hfloor : (d : Int) / (2 * d) = 0 := Int.ediv_eq_zero_of_lt (by omega) (by omega)
    simp [rdiv, hfloor]
  · simp [rdiv, Int.sign_natCast_of_ne_zero hn.ne']

/-- `q` is an integer nearest to `n / d`, the one farther from zero if two are equally near. -/
def NearestHalvesAway (n : Int) (d : Nat) (q : Int) : Prop :=
  2 * |q * d - n| ≤ d ∧ (2 * |q * d - n| = d → |n| < |q * d|)

theorem NearestHalvesAway.neg {n q : Int} {d : Nat} (h : NearestHalvesAway n d q) : NearestHalvesAway (-n) d (-q) := by
  have hdist : |-q * d - -n| = |q * d - n| := by rw [← abs_neg]; ring_nf
  have hprod : |-q * d| = |q * d| := by rw [neg_mul, abs_neg]
  simpa only [NearestHalvesAway, hdist, hprod, abs_neg] using h

/-- Above zero the floor puts `2n` in the interval from `2qd - d`, included, to `2qd + d`. -/
theorem nearestHalvesAway_natCast (n : Nat) {d : Nat} (hd : 0 < d) : NearestHalvesAway n d (rdiv n d) := by
  have h2d : (0 : Int) < 2 * d := by omega
  have hlo := Int.ediv_mul_le (2 * n + d : Int) h2d.ne'
  have hhi := Int.lt_ediv_add_one_mul_self (2 * n + d : Int) h2d
  rw [← rdiv_natCast n hd] at hlo hhi
  have hlo' : 2 * (rdiv n d * d) ≤ 2 * n + d := by linarith
  have hhi' : 2 * n < 2 * (rdiv n d * d) + d := by linarith
  have hdist := abs_cases (rdiv n d * d - n)
  constructor
  · omega
  · intro htie
    rw [Nat.abs_cast]
    exact lt_of_lt_of_le (by omega) (le_abs_self _)

/-- R211's words; the two signs are alike, as `rdiv` is odd. -/
theorem rdiv_nearestHalvesAway (n : Int) {d : Nat} (hd : 0 < d) : NearestHalvesAway n d (rdiv n d) := by
  obtain ⟨k, rfl | rfl⟩ := n.eq_nat_or_neg
  · exact nearestHalvesAway_natCast k hd
  · rw [rdiv_neg]
    exact (nearestHalvesAway_natCast k hd).neg

/-- Settles O30: the formula with its absolute value in the integers, and the nearest integer by the sign of `n`. -/
theorem roundingDivisionIsToNearestHalvesAway : Obligations.RoundingDivisionIsToNearestHalvesAway :=
  fun n d hd => ⟨rdiv_eq n d, rdiv_nearestHalvesAway n hd⟩

/-- A quotient that is an integer is not rounded. -/
theorem rdiv_mul_left (n : Int) {d : Nat} (hd : 0 < d) : rdiv (d * n) d = n := by
  obtain ⟨hnear, -⟩ := rdiv_nearestHalvesAway (d * n) hd
  have hd' : (0 : Int) < d := by omega
  have hfactor : rdiv (d * n) d * d - d * n = (rdiv (d * n) d - n) * d := by ring
  rw [hfactor, abs_mul, abs_of_pos hd', ← mul_assoc] at hnear
  have hle : 2 * |rdiv (d * n) d - n| ≤ 1 := le_of_mul_le_mul_right (by rwa [one_mul]) hd'
  have hdist := abs_cases (rdiv (d * n) d - n)
  omega

theorem abs_rdiv_sub_le (n : Int) {d : Nat} (hd : 0 < d) : |(rdiv n d : ℚ) - n / d| ≤ 1 / 2 := by
  obtain ⟨hnear, -⟩ := rdiv_nearestHalvesAway n hd
  have hd' : (0 : ℚ) < d := by exact_mod_cast hd
  have hnear' : 2 * |(rdiv n d * d - n : ℚ)| ≤ d := by exact_mod_cast hnear
  have hquot : (rdiv n d : ℚ) - n / d = (rdiv n d * d - n) / d := by field_simp
  rw [hquot, abs_div, abs_of_pos hd', div_le_iff₀ hd']
  linarith

/-- Two rounded terms are off by at most one half each. -/
theorem abs_rdiv_sub_rdiv_le (n k : Int) {d e : Nat} (hd : 0 < d) (he : 0 < e) :
    |((rdiv n d - rdiv k e : Int) : ℚ) - (n / d - k / e)| ≤ 1 := by
  have hn := abs_rdiv_sub_le n hd
  have hk := abs_rdiv_sub_le k he
  calc |((rdiv n d - rdiv k e : Int) : ℚ) - (n / d - k / e)|
      = |(rdiv n d - n / d : ℚ) - (rdiv k e - k / e)| := by push_cast; ring_nf
    _ ≤ |(rdiv n d - n / d : ℚ)| + |(rdiv k e - k / e : ℚ)| := abs_sub _ _
    _ ≤ 1 := by linarith

/-! ## What each unit computes -/

section
variable (f : ConvForm) (raw : Int) (m : Nat) (off : Int)

/-! The numerators of R213, by the rows of R212. -/

theorem numerator_kelvin : numerator .kelvin raw m off = m * (raw - off) := by
  simp [numerator, scaleRow]

theorem numerator_celsius : numerator .celsius raw m off = 100 * m * (raw - off) - 1748160 * m := by
  simp [numerator, scaleRow, sub_eq_add_neg]

theorem numerator_fahrenheit : numerator .fahrenheit raw m off = 900 * m * (raw - off) - 14709440 * m := by
  simp [numerator, scaleRow, sub_eq_add_neg]

theorem numerator_humidity : numerator .humidity raw m off = m * raw := by
  simp [numerator, scaleRow]

/-! The conversions under either form (R213, R215). -/

theorem convert_kelvin : convert f .kelvin raw m off = rdiv (m * (raw - off)) 64 := by
  cases f with
  | exact => exact congrArg (rdiv · 64) (numerator_kelvin raw m off)
  | twoTerm => rfl

theorem convert_celsius :
    convert f .celsius raw m off =
      if f = .exact then rdiv (100 * m * (raw - off) - 1748160 * m) 6400
      else rdiv (m * (raw - off)) 64 - rdiv (27315 * m) 100 := by
  cases f with
  | exact => exact congrArg (rdiv · 6400) (numerator_celsius raw m off)
  | twoTerm => rfl

theorem convert_fahrenheit :
    convert f .fahrenheit raw m off =
      if f = .exact then rdiv (900 * m * (raw - off) - 14709440 * m) 32000
      else rdiv (9 * m * (raw - off)) 320 - rdiv (45967 * m) 100 := by
  cases f with
  | exact => exact congrArg (rdiv · 32000) (numerator_fahrenheit raw m off)
  | twoTerm => rfl

theorem convert_humidity : convert f .humidity raw m off = rdiv (m * raw) 512 := by
  cases f with
  | exact => exact congrArg (rdiv · 512) (numerator_humidity raw m off)
  | twoTerm => rfl

end

/-- Settles O36: the multiplier is the divisor. -/
theorem nativeScaleConversionsAreExact : Obligations.NativeScaleConversionsAreExact := by
  intro f raw off
  rw [convert_kelvin, convert_humidity]
  exact ⟨rdiv_mul_left _ (by decide), rdiv_mul_left _ (by decide)⟩

/-! ## Error bounds -/

section
variable (u : ScaleUnit) (raw off : Int) (m : Nat)

/-- The constants of R212 encode the affine value exactly. -/
theorem numerator_div_eq_affineValue :
    (numerator u raw m off : ℚ) / (scaleRow u).d = m * affineValue u raw off := by
  cases u with
  | kelvin | celsius | fahrenheit | humidity =>
    simp only [numerator_kelvin, numerator_celsius, numerator_fahrenheit, numerator_humidity, scaleRow, affineValue]
    push_cast
    ring

theorem scaleRow_d_pos : 0 < (scaleRow u).d := by
  cases u <;> decide

/-- One rounding, so one half. -/
theorem abs_convertExact_sub_le : |(convertExact u raw m off : ℚ) - m * affineValue u raw off| ≤ 1 / 2 := by
  rw [← numerator_div_eq_affineValue]
  exact abs_rdiv_sub_le _ (scaleRow_d_pos u)

/-- Two roundings at most: for Kelvin and humidity the form is the exact one (R215). -/
theorem abs_convertTwoTerm_sub_le : |(convertTwoTerm u raw m off : ℚ) - m * affineValue u raw off| ≤ 1 := by
  cases u with
  | kelvin =>
    have hexact : convertTwoTerm .kelvin raw m off = convertExact .kelvin raw m off :=
      (convert_kelvin .exact raw m off).symm
    rw [hexact]
    linarith [abs_convertExact_sub_le .kelvin raw off m]
  | humidity =>
    have hexact : convertTwoTerm .humidity raw m off = convertExact .humidity raw m off :=
      (convert_humidity .exact raw m off).symm
    rw [hexact]
    linarith [abs_convertExact_sub_le .humidity raw off m]
  | celsius =>
    have hterms : (m : ℚ) * affineValue .celsius raw off =
        ((m * (raw - off) : Int) : ℚ) / (64 : Nat) - ((27315 * m : Int) : ℚ) / (100 : Nat) := by
      simp only [affineValue]
      push_cast
      ring
    rw [hterms]
    exact abs_rdiv_sub_rdiv_le _ _ (by decide) (by decide)
  | fahrenheit =>
    have hterms : (m : ℚ) * affineValue .fahrenheit raw off =
        ((9 * m * (raw - off) : Int) : ℚ) / (320 : Nat) - ((45967 * m : Int) : ℚ) / (100 : Nat) := by
      simp only [affineValue]
      push_cast
      ring
    rw [hterms]
    exact abs_rdiv_sub_rdiv_le _ _ (by decide) (by decide)

end

/-- Settles O35: one rounding under `EXACT`, at most two under `TWO_TERM`. -/
theorem conversionsAreWithinTheirErrorBounds : Obligations.ConversionsAreWithinTheirErrorBounds :=
  fun u raw off m => ⟨abs_convertExact_sub_le u raw off m, abs_convertTwoTerm_sub_le u raw off m⟩

/-! ## Widths -/

/-- The Fahrenheit row has the largest coefficients. -/
theorem abs_scaleRow_le (u : ScaleUnit) : |(scaleRow u).a| ≤ 900 ∧ |(scaleRow u).b| ≤ 14709440 := by
  cases u <;> decide

theorem abs_numerator_le (u : ScaleUnit) {raw off bound : Int} {m maxMult : Nat} (hraw : |raw| ≤ bound)
    (hdiff : |raw - off| ≤ bound) (hm : m ≤ maxMult) :
    |numerator u raw m off| ≤ 900 * maxMult * bound + 14709440 * maxMult := by
  obtain ⟨ha, hb⟩ := abs_scaleRow_le u
  have hm' : |(m : Int)| ≤ maxMult := by rw [Nat.abs_cast]; exact_mod_cast hm
  have ht : |if (scaleRow u).useOffset then raw - off else raw| ≤ bound := by
    split
    · exact hdiff
    · exact hraw
  refine (abs_add_le _ _).trans ?_
  rw [abs_mul, abs_mul, abs_mul]
  gcongr

theorem abs_toInt_sub_toInt_le (x y : Word) : |x.toInt - y.toInt| ≤ 2 ^ 32 := by
  have hx := x.toInt_lt
  have hx' := x.le_toInt
  have hy := y.toInt_lt
  have hy' := y.le_toInt
  exact abs_le.2 ⟨by omega, by omega⟩

/-- Settles O37: the largest row at the largest operand and multiplier. -/
theorem numeratorsFitSixtyFourBits : Obligations.NumeratorsFitSixtyFourBits := by
  intro u raw off m hm
  have hdiff := abs_toInt_sub_toInt_le raw off
  have hraw : |raw.toInt| ≤ 2 ^ 32 := by simpa using abs_toInt_sub_toInt_le raw 0#32
  have hnum := abs_numerator_le u hraw hdiff hm
  exact ⟨hdiff, hnum, hnum.trans_lt (by norm_num)⟩

theorem fitsInt32_iff (r : Int) : fitsInt32 r = true ↔ -(2 ^ 31) ≤ r ∧ r ≤ 2 ^ 31 - 1 := by
  simp only [fitsInt32, Bool.and_eq_true, decide_eq_true_eq]

theorem abs_convert_sub_le_one (f : ConvForm) (u : ScaleUnit) (raw off : Int) (m : Nat) :
    |(convert f u raw m off : ℚ) - m * affineValue u raw off| ≤ 1 := by
  cases f with
  | exact => exact (abs_convertExact_sub_le u raw off m).trans (by norm_num)
  | twoTerm => exact abs_convertTwoTerm_sub_le u raw off m

/-- For a sensor-range reading the largest affine value is Fahrenheit's, at `2^18 * 9/320 + 459.67`. -/
theorem abs_affineValue_le (u : ScaleUnit) {raw off : Int} (h0 : 0 ≤ raw) (hraw : raw < 2 ^ 17)
    (hoff : |off| < 2 ^ 17) : |affineValue u raw off| ≤ 7900 := by
  obtain ⟨hlo, hhi⟩ := abs_lt.1 hoff
  have h0' : (0 : ℚ) ≤ raw := by exact_mod_cast h0
  have hraw' : (raw : ℚ) < 2 ^ 17 := by exact_mod_cast hraw
  have hlo' : (-2 ^ 17 : ℚ) < off := by exact_mod_cast hlo
  have hhi' : (off : ℚ) < 2 ^ 17 := by exact_mod_cast hhi
  cases u with
  | kelvin | celsius | fahrenheit | humidity =>
    simp only [affineValue]
    exact abs_le.2 ⟨by linarith, by linarith⟩

/-- Settles O38: the affine value's bound times the multiplier, and the error of the form. -/
theorem sensorRangeConversionsFit : Obligations.SensorRangeConversionsFit := by
  intro f u raw off m h0 hraw hoff hm
  have hm' : (m : ℚ) ≤ 10000 := by exact_mod_cast hm
  have haffine : |(m : ℚ) * affineValue u raw off| ≤ 10000 * 7900 := by
    rw [abs_mul, Nat.abs_cast]
    exact mul_le_mul hm' (abs_affineValue_le u h0 hraw hoff) (abs_nonneg _) (by norm_num)
  have herror := abs_convert_sub_le_one f u raw off m
  have hsplit := abs_sub_abs_le_abs_sub (convert f u raw m off : ℚ) (m * affineValue u raw off)
  have hbound : |convert f u raw m off| < 8 * 10 ^ 7 := by
    have hq : |(convert f u raw m off : ℚ)| < 8 * 10 ^ 7 := by linarith
    exact_mod_cast hq
  obtain ⟨hlo, hhi⟩ := abs_lt.1 hbound
  exact ⟨hbound, (fitsInt32_iff _).2 ⟨by omega, by omega⟩⟩

/-! ## The conversion commands -/

/-- The raw input that `SRC` selects, for each of its three sources (R216). -/
def Selects (s : State) (src : BitVec 2) (raw : Int) : Prop :=
  src = 0#2 ∧ raw = s.curArg.toInt ∨ src = 1#2 ∧ raw = s.tData.toNat ∨ src = 2#2 ∧ raw = s.hData.toNat

theorem Selects.rawSource_eq {s : State} {src : BitVec 2} {raw : Int} (h : Selects s src raw) :
    rawSource src s = some raw := by
  obtain ⟨rfl, rfl⟩ | ⟨rfl, rfl⟩ | ⟨rfl, rfl⟩ := h <;> rfl

theorem Selects.src_ne {s : State} {src : BitVec 2} {raw : Int} (h : Selects s src raw) : src.toNat ≠ 3 := by
  obtain ⟨rfl, -⟩ | ⟨rfl, -⟩ | ⟨rfl, -⟩ := h <;> decide

theorem finishConverted_fits {r : Int} (s : State) (h : -(2 ^ 31) ≤ r ∧ r ≤ 2 ^ 31 - 1) :
    finishConverted r s = finish .none { s with result := BitVec.ofInt 32 r } :=
  if_pos ((fitsInt32_iff r).2 h)

theorem finishConverted_range {r : Int} (s : State) (h : ¬(-(2 ^ 31) ≤ r ∧ r ≤ 2 ^ 31 - 1)) :
    finishConverted r s = finish .range s :=
  if_neg (mt (fitsInt32_iff r).1 h)

section
variable {i : Instr} {s : State} {l : Locals} {src : BitVec 2} {mult : BitVec 16} {raw : Int}
  (hat : AtStep s 1 l none) (hready : s.initState = .ready) (hmult : mult ≠ 0#16)
  (hmax : mult.toNat ≤ s.params.multMax.toNat) (hsel : Selects s src raw)
include hat hready hmult hmax hsel

/-- With legal operands the prologue passes and the source is there (R131, R216). -/
theorem conversion_of_legal (u : ScaleUnit) (hi : badArg s.params i = !conversionArgsLegal s.params src mult) :
    conversion i u src mult s = .next (finishConverted (converted u raw mult s) s) := by
  have hpos : mult.toNat ≠ 0 := mt (BitVec.toNat_inj (y := 0#16)).1 hmult
  have hlegal := (conversionArgsLegal_iff s.params src mult).2 ⟨hsel.src_ne, hpos, hmax⟩
  have hpass : badArg s.params i = false := by rw [hi, hlegal]; rfl
  simp only [conversion, hat.stepIndex_eq, hsel.rawSource_eq]
  exact prologue_pass _ hready hpass

/-- The converted value goes to `RESULT` if it fits, else the command ends with `RANGE` (R218, R226). -/
theorem conversion_writes {u : ScaleUnit} {r : Int}
    (hi : badArg s.params i = !conversionArgsLegal s.params src mult) (hr : converted u raw mult s = r) :
    (-(2 ^ 31) ≤ r ∧ r ≤ 2 ^ 31 - 1 →
      conversion i u src mult s = .next (finish .none { s with result := BitVec.ofInt 32 r })) ∧
    (¬(-(2 ^ 31) ≤ r ∧ r ≤ 2 ^ 31 - 1) → conversion i u src mult s = .next (finish .range s)) := by
  rw [conversion_of_legal hat hready hmult hmax hsel u hi, hr]
  exact ⟨fun h => congrArg _ (finishConverted_fits s h), fun h => congrArg _ (finishConverted_range s h)⟩

end

/-- Settles O31: a legal conversion writes its value, and Kelvin's is one rounded term under both forms. -/
theorem kelvinWritesTheRoundedTemperature : Obligations.KelvinWritesTheRoundedTemperature :=
  fun _ _ _ _ _ hat hready hmult hmax hsel =>
    conversion_writes hat hready hmult hmax hsel (badArg_eq_not_argsLegal _ _) (convert_kelvin ..)

/-- Settles O32: as O31, with Celsius's value under each form. -/
theorem celsiusWritesTheRoundedTemperature : Obligations.CelsiusWritesTheRoundedTemperature :=
  fun _ _ _ _ _ hat hready hmult hmax hsel =>
    conversion_writes hat hready hmult hmax hsel (badArg_eq_not_argsLegal _ _) (convert_celsius ..)

/-- Settles O33: as O31, with Fahrenheit's value under each form. -/
theorem fahrenheitWritesTheRoundedTemperature : Obligations.FahrenheitWritesTheRoundedTemperature :=
  fun _ _ _ _ _ hat hready hmult hmax hsel =>
    conversion_writes hat hready hmult hmax hsel (badArg_eq_not_argsLegal _ _) (convert_fahrenheit ..)

/-- Settles O34: as O31, humidity's value without the offset. -/
theorem humidityWritesTheRoundedHumidity : Obligations.HumidityWritesTheRoundedHumidity :=
  fun _ _ _ _ _ hat hready hmult hmax hsel =>
    conversion_writes hat hready hmult hmax hsel (badArg_eq_not_argsLegal _ _) (convert_humidity ..)

/-! ## A conversion reads no status register -/

/-- The state with other values in the three status registers. -/
def setStatuses (tS hS vS : Status) (s : State) : State := { s with tStatus := tS, hStatus := hS, vStatus := vS }

section
variable (tS hS vS : Status) (s : State)

theorem finishConverted_setStatuses (r : Int) :
    finishConverted r (setStatuses tS hS vS s) = setStatuses tS hS vS (finishConverted r s) := by
  unfold finishConverted
  exact ite_eq_apply rfl rfl

theorem prologue_setStatuses {i : Instr} {body body' : Result State} (h : body' = mapNext (setStatuses tS hS vS) body) :
    prologue i (setStatuses tS hS vS s) body' = mapNext (setStatuses tS hS vS) (prologue i s body) := by
  unfold prologue
  exact ite_eq_apply rfl (ite_eq_apply rfl h)

/-- The operand comes from the latched `ARG0` or a data register, the rest from the offset and the parameters (R216,
R223). -/
theorem conversion_setStatuses (i : Instr) (u : ScaleUnit) (src : BitVec 2) (mult : BitVec 16) :
    conversion i u src mult (setStatuses tS hS vS s) =
      mapNext (setStatuses tS hS vS) (conversion i u src mult s) := by
  have hindex : stepIndex (setStatuses tS hS vS s) = stepIndex s := rfl
  have hsource : rawSource src (setStatuses tS hS vS s) = rawSource src s := rfl
  simp only [conversion, hindex, hsource]
  split
  · refine prologue_setStatuses tS hS vS s ?_
    split
    · exact congrArg _ (finishConverted_setStatuses tS hS vS s _)
    · rfl
  · rfl

end

theorem IsConversion.exec_eq {i : Instr} (hi : IsConversion i) :
    ∃ u src mult, ∀ s, exec i s = conversion i u src mult s := by
  obtain ⟨src, mult, rfl | rfl | rfl | rfl⟩ := hi
  · exact ⟨.kelvin, src, mult, fun _ => rfl⟩
  · exact ⟨.celsius, src, mult, fun _ => rfl⟩
  · exact ⟨.fahrenheit, src, mult, fun _ => rfl⟩
  · exact ⟨.humidity, src, mult, fun _ => rfl⟩

/-- Settles O48: whatever the unit, the step commutes with setting the three registers. -/
theorem conversionsIgnoreReadingStatuses : Obligations.ConversionsIgnoreReadingStatuses := by
  intro i s tS hS vS hi
  obtain ⟨u, src, mult, hexec⟩ := IsConversion.exec_eq hi
  rw [hexec, hexec]
  exact (conversion_setStatuses tS hS vS s i u src mult).trans (by cases conversion i u src mult s <;> rfl)

end Sys2Proof.Machine
end

section
/-! PROOFS. Errors and faults (60_exceptions.md): what `finish` and `raise` write, that a `FAILED` block stays `FAILED`, and
where the four model faults arise. -/

namespace Sys2Proof.Machine

/-! ## The two ways a command ends -/

/-- Settles O10: the fields of R252, with `OPC` as the low four bits of the latched word. -/
theorem finishWritesExactlyItsFields : Obligations.FinishWritesExactlyItsFields := fun _ _ => rfl

/-- Settles O49: `step` looks at the recorded fault first. -/
theorem faultedBlockTakesNoStep : Obligations.FaultedBlockTakesNoStep :=
  ⟨fun _ _ h => step_faulted h, fun _ _ => rfl⟩

/-! ## A `FAILED` block -/

/-- A commit group that leaves another `INIT_STATE` than `FAILED` in a `FAILED` block is that of an `INIT` which succeeded
(40_protocol.md R132). -/
theorem Commits.of_failed {i : Instr} {s u : State} {e : CmdErr} (hc : Commits i s e u) (hs : s.initState = .failed) :
    u.initState = .failed ∨ (isInit i = true ∧ e = .none ∧ u.initState = .ready) := by
  cases hc with
  | initWriteFailed | initReadFailed | initMismatched => exact .inl rfl
  | initialized hi => exact .inr ⟨hi, rfl, rfl⟩
  | waited ms => exact .inl ((commitWait_initState ms s).trans hs)
  | _ => exact .inl hs

/-- What a command's step makes of a `FAILED` block. -/
theorem exec_of_failed {i : Instr} {s t : State} (ht : exec i s = .next t) (hs : s.initState = .failed) :
    t.initState = .failed ∨ (isInit i = true ∧ t.initState = .ready ∧ t.cmdErr = .none ∧ t.busy = false) := by
  cases exec_progress ht with
  | issued => exact .inl hs
  | faulted => exact .inl hs
  | finished e u _ hc =>
    rcases hc.of_failed hs with hfailed | ⟨hi, rfl, hready⟩
    · exact .inl hfailed
    · exact .inr ⟨hi, hready, rfl, rfl⟩

/-- The host cannot write `INIT_STATE` (10_state.md R38). -/
theorem hostAccess_initState (a : HostAccess) (s : State) : (hostAccess a s).initState = s.initState := by
  rcases hostAccess_cases a s with ⟨v, he⟩ | he | ⟨_, he⟩ | ⟨w, _, he⟩ | ⟨v, he⟩ | he <;> rw [he] <;> rfl

/-- Settles O46: of all moves only block reset and a command's step can change `INIT_STATE`. -/
theorem initFailureIsSticky : Obligations.InitFailureIsSticky := by
  intro s t hstep hs
  obtain ⟨_, hm⟩ := step_cases hstep
  cases hm with
  | stayed => exact .inl hs
  | hosted a => exact .inl ((hostAccess_initState a _).trans hs)
  | illegal => exact .inl hs
  | answeredBy => exact .inl hs
  | blockReset rest hscript => exact .inr (.inl ⟨rest, hscript⟩)
  | ran _ op k l hp i hd _ ht =>
    rcases exec_of_failed ht hs with hfailed | ⟨hi, hready, herr, hbusy⟩
    · exact .inl hfailed
    · obtain ⟨d, rfl⟩ := exists_init_of_isInit hi
      exact .inr (.inr ⟨d, hd, hready, herr, hbusy⟩)

/-! ## Where the model faults arise -/

/-- An access that R62 refuses: unaligned, past the map, or not of 32 bits. -/
def RefusedAccess (off : BitVec 6) (width : Nat) : Prop := off.toNat % 4 ≠ 0 ∨ 0x34 ≤ off.toNat ∨ width ≠ 32

/-- Every aligned offset below the map's end is a register's (20_memory.md R61). -/
theorem exists_regAt_eq_some :
    ∀ off : BitVec 6, off.toNat % 4 = 0 → off.toNat < 0x34 → ∃ r, regAt off = some r := by
  simp only [← Option.isSome_iff_exists]
  decide

theorem refusedAccess_or_mapped (off : BitVec 6) (width : Nat) :
    RefusedAccess off width ∨ (width = 32 ∧ ∃ r, off = regOffset r) := by
  by_cases h : RefusedAccess off width
  · exact .inl h
  · simp only [RefusedAccess, not_or, not_not, not_le] at h
    obtain ⟨haligned, hbelow, hwidth⟩ := h
    obtain ⟨r, hr⟩ := exists_regAt_eq_some off haligned hbelow
    exact .inr ⟨hwidth, r, (regAt_eq_some_iff off r).1 hr⟩

/-- The two faults of a host access: a refused one, and a command written while one runs (40_protocol.md R130). -/
theorem hostAccess_raises {a : HostAccess} {s : State} {f : Fault} (hs : s.faulted = none)
    (h : (hostAccess a s).faulted = some f) :
    (f = .cmdWhileBusy ∧ s.busy = true ∧ ∃ w, a = .write (regOffset .cmd) 32 w) ∨
      (f = .hostAccess ∧ ∃ off width, RefusedAccess off width ∧ (a = .read off width ∨ ∃ v, a = .write off width v)) := by
  cases a with
  | read off width =>
    rcases refusedAccess_or_mapped off width with hbad | ⟨rfl, r, rfl⟩
    · rw [(hostAccess_refused s hbad).1] at h
      cases h
      exact .inr ⟨rfl, off, width, hbad, .inl rfl⟩
    · rw [hostAccess_read s (regAt_regOffset r)] at h
      cases hs.symm.trans h
  | write off width v =>
    rcases refusedAccess_or_mapped off width with hbad | ⟨rfl, r, rfl⟩
    · rw [(hostAccess_refused s hbad).2 v] at h
      cases h
      exact .inr ⟨rfl, off, width, hbad, .inr ⟨v, rfl⟩⟩
    · rw [hostAccess_write v s (regAt_regOffset r)] at h
      rcases writeReg_cases r v s with ⟨rfl, hb, he⟩ | ⟨_, _, he⟩ | ⟨_, he⟩ | ⟨_, _, he⟩ <;> rw [he] at h
      · cases h
        exact .inl ⟨rfl, hb, v, rfl⟩
      · cases hs.symm.trans h
      · cases hs.symm.trans h
      · cases hs.symm.trans h

/-- No commit group records a fault (60_exceptions.md R252, R259). -/
theorem Commits.faulted_eq {i : Instr} {s u : State} {e : CmdErr} (hc : Commits i s e u) : u.faulted = s.faulted := by
  cases hc <;> simp

/-- A conversion not waited out (10_state.md R40). -/
theorem waitAcc_lt_of_not_convElapsed {s : State} (hp : s.convPending = true) (h : convElapsed s = false) :
    s.waitAcc.toNat < s.params.tConvMs.toNat := by
  simpa [convElapsed, hp] using h

/-- The two faults of a command's step: both of a `READY` block with a conversion pending. -/
theorem exec_raises {i : Instr} {s t : State} {f : Fault} (ht : exec i s = .next t) (hs : s.faulted = none)
    (h : t.faulted = some f) :
    s.initState = .ready ∧ s.convPending = true ∧
      ((f = .retrigger ∧ (i = .start ∨ i = .measure)) ∨
        (f = .earlyRead ∧ i = .read ∧ s.waitAcc.toNat < s.params.tConvMs.toNat)) := by
  cases exec_progress ht with
  | finished e u _ hc => cases (hc.faulted_eq.trans hs).symm.trans h
  | issued => cases hs.symm.trans h
  | faulted f' _ hr hp hf =>
    cases h
    rcases hf with hretrigger | ⟨hf, hi, helapsed⟩
    · exact ⟨hr, hp, .inl hretrigger⟩
    · exact ⟨hr, hp, .inr ⟨hf, hi, waitAcc_lt_of_not_convElapsed hp helapsed⟩⟩

/-- Settles O50: of all moves only a host access and a command's step record a fault. -/
theorem modelFaultsAriseOnlyAsListed : Obligations.ModelFaultsAriseOnlyAsListed := by
  intro s t f hstep hfault
  obtain ⟨hs, hm⟩ := step_cases hstep
  cases hm with
  | stayed => cases hs.symm.trans hfault
  | illegal => cases hs.symm.trans hfault
  | answeredBy => cases hs.symm.trans hfault
  | blockReset => cases hs.symm.trans hfault
  | hosted a rest hscript =>
    rcases hostAccess_raises (s := popped s) hs hfault with ⟨hf, hb, w, rfl⟩ | ⟨hf, off, width, hbad, ha⟩
    · exact .inl ⟨hf, hb, w, rest, hscript⟩
    · refine .inr (.inr (.inr ⟨hf, off, width, rest, hbad, ?_⟩))
      rcases ha with rfl | ⟨v, rfl⟩
      · exact .inl hscript
      · exact .inr ⟨v, hscript⟩
  | ran _ op k l hp i hd _ ht =>
    obtain ⟨hready, hpending, ⟨hf, rfl | rfl⟩ | ⟨hf, rfl, hearly⟩⟩ := exec_raises (s := popped s) ht hs hfault
    · exact .inr (.inl ⟨hf, .inl hd, hready, hpending⟩)
    · exact .inr (.inl ⟨hf, .inr hd, hready, hpending⟩)
    · exact .inr (.inr (.inl ⟨hf, hd, hready, hpending, hearly⟩))

end Sys2Proof.Machine
end

section
/-! PROOFS. Reset and hazards (70_reset_and_hazards.md): the state at the start of a run, block reset, and that a running
command comes to an end once every agent asked answers. -/

namespace Sys2Proof.Machine

/-! ## The start of a run -/

/-- `CTRL_STAT` reads 0 after reset, whatever the parameters (10_state.md R36). -/
theorem ctrlStat_resetOf (p : Params) : ctrlStat (State.resetOf p) = 0#32 := by
  simp only [ctrlStat, convElapsed, State.resetOf, Bool.false_and]
  decide

/-- Settles O51: the fields as `State.resetOf` writes them, and `CTRL_STAT` made of them. -/
theorem resetLeavesEveryRegisterAtItsValue : Obligations.ResetLeavesEveryRegisterAtItsValue :=
  ⟨rfl, rfl, rfl, rfl, rfl, rfl, rfl, rfl, rfl, rfl, rfl, rfl, rfl, rfl, rfl, rfl, rfl, ctrlStat_resetOf _, rfl, rfl, rfl,
    rfl, rfl, rfl⟩

/-- The start of a run is a block just reset (R280). -/
theorem blockReset_reset : blockReset State.reset = State.reset := rfl

/-- Settles O53: block reset meets the invariant from any state. -/
theorem resetMeetsTheInvariant : Obligations.ResetMeetsTheInvariant := by
  have h := blockInv_blockReset State.reset
  rwa [blockReset_reset] at h

/-! ## Block reset -/

theorem step_blockReset {s : State} {rest : List Move} (hf : s.faulted = none) (hs : s.script = .blockReset :: rest) :
    step s = .next (blockReset { s with script := rest }) :=
  step_script_cons hf hs

/-- An answer with nothing outstanding is discarded (R280; log 8). -/
theorem step_answer_to_nothing {s : State} {m : Move} {f : Request → Option Answer} {rest : List Move}
    (hm : Answering m f) (hf : s.faulted = none) (hs : s.script = m :: rest) (ho : s.outstanding = none) :
    step s = .next { s with script := rest } := by
  rw [step_answering hm hf hs]
  simp only [answerWith, ho]

/-- Settles O52: block reset keeps `faulted`, which is `none` in a block that steps. -/
theorem blockResetSetsEveryField : Obligations.BlockResetSetsEveryField := by
  constructor
  · intro s rest hf hs
    rw [step_blockReset hf hs]
    simp only [blockReset, State.resetOf, hf]
  · rintro s rest ok bytes hf ho (hs | hs)
    · exact step_answer_to_nothing (answering_bus ok bytes) hf hs ho
    · exact step_answer_to_nothing answering_delayDone hf hs ho

/-! ## The free answer -/

/-- Settles O58: a free draw fits every request. -/
theorem unscriptedRequestsAreAnsweredFreely : Obligations.UnscriptedRequestsAreAnsweredFreely := by
  intro s r hf hs ho
  obtain ⟨a, ha⟩ := freeAnswer_isSome s.draws r
  have hw : waiting s = true := (waiting_iff s).2 ⟨r, ho⟩
  refine ⟨a, freeAnswer_fits ha, ?_⟩
  rw [step_script_nil hf hs, fairMove, if_pos hw]
  simp only [drawAnswer, answerWith, ho, ha]

/-! ## A running command comes to an end -/

/-- An answer is consumed at step 2 at the earliest and, with `n` trigger writes, at step `n + 5` at the latest: `INIT` ends
at step 5, `MEASURE` at step `n + 4` (40_protocol.md R132, R139). -/
theorem expectedRequest_step_bounds {p : Params} {i : Instr} {k : Nat} {r : Request}
    (h : expectedRequest p i k = some r) : 2 ≤ k ∧ k ≤ p.triggerWrites.length + 5 := by
  by_contra hk
  have outside : ∀ m, 2 ≤ m → m ≤ p.triggerWrites.length + 5 → k ≠ m := fun m hlo hhi hkm => hk (hkm ▸ ⟨hlo, hhi⟩)
  cases i with
  | init d => simp [expectedRequest, initRequest, outside] at h
  | reset | setlp _ | wait _ => simp [expectedRequest, outside] at h
  | readid => simp [expectedRequest, readidRequest, outside] at h
  | start =>
    obtain ⟨h2, hr⟩ : ¬ k < 2 ∧ triggerRequest p (k - 2) = some r := by simpa [expectedRequest] using h
    have hlt := triggerRequest_lt hr
    omega
  | read => simp [expectedRequest, readRequest, outside] at h
  | measure =>
    by_cases h2 : k < 2
    · simp [expectedRequest, measureRequest, h2] at h
    · have hlt : ¬ k < p.triggerWrites.length + 2 := by omega
      simp [expectedRequest, measureRequest, outside, h2, hlt] at h
  | validate | kelvin _ _ | celsius _ _ | fahrenheit _ _ | humidity _ _ => cases h

/-- The block goes on with no agent's move named: it meets the invariant, has no fault, and its script has run out. -/
structure Unscripted (s : State) : Prop where
  inv : BlockInv s
  no_fault : s.faulted = none
  script_nil : s.script = []

/-- The command has finished, or the block has faulted (60_exceptions.md R252, R259). -/
def Ended (s : State) : Prop := s.phase = .idle ∨ s.faulted ≠ none

/-- How many steps the running command can still take: two for each step it may have to wait for, one for the step it
stands at, and one more if that step's answer is still to come. -/
def stepsLeft (s : State) : Nat :=
  match s.phase with
  | .idle => 0
  | .exec _ k _ => 2 * (s.params.triggerWrites.length + 5 - k) + if waiting s then 2 else 1

theorem stepsLeft_of_waiting {s : State} {op : BitVec 4} {k : Nat} {l : Locals} (hp : s.phase = .exec op k l)
    (hw : waiting s = true) : stepsLeft s = 2 * (s.params.triggerWrites.length + 5 - k) + 2 := by
  simp only [stepsLeft, hp, hw, if_true]

theorem stepsLeft_of_not_waiting {s : State} {op : BitVec 4} {k : Nat} {l : Locals} (hp : s.phase = .exec op k l)
    (hw : waiting s = false) : stepsLeft s = 2 * (s.params.triggerWrites.length + 5 - k) + 1 := by
  simp only [stepsLeft, hp, hw, Bool.false_eq_true, if_false]

theorem stepsLeft_pos {s : State} (hp : s.phase ≠ .idle) : 0 < stepsLeft s := by
  unfold stepsLeft
  split
  · contradiction
  · split <;> omega

/-- Step 1 awaits no answer, and a step that awaits one is at least the second (10_state.md R45). -/
theorem BlockInv.stepsLeft_le {s : State} (h : BlockInv s) : stepsLeft s ≤ 2 * s.params.triggerWrites.length + 9 := by
  cases hp : s.phase with
  | idle => simp [stepsLeft, hp]
  | exec op k l =>
    rcases h.positioned op k l hp with ⟨rfl, ho⟩ | ⟨_, i, o, _, _, hr, _⟩
    · rw [stepsLeft_of_not_waiting hp (by simp [waiting, ho])]
      omega
    · have hbounds := expectedRequest_step_bounds hr
      cases hw : waiting s with
      | true => rw [stepsLeft_of_waiting hp hw]; omega
      | false => rw [stepsLeft_of_not_waiting hp hw]; omega

/-- An answer that comes brings the command nearer its end. -/
theorem step_stepsLeft_of_waiting {s : State} {op : BitVec 4} {k : Nat} {l : Locals} (hs : s.script = [])
    (hf : s.faulted = none) (hp : s.phase = .exec op k l) (hw : waiting s = true) :
    ∃ t, step s = .next t ∧ t.faulted = none ∧ t.script = [] ∧ stepsLeft t < stepsLeft s := by
  obtain ⟨r, ho⟩ := (waiting_iff s).1 hw
  obtain ⟨a, _, hstep⟩ := unscriptedRequestsAreAnsweredFreely s r hf hs ho
  refine ⟨_, hstep, hf, hs, ?_⟩
  have hleft := stepsLeft_of_not_waiting (s := { s with outstanding := answered r a, draws := s.draws + 1 }) hp rfl
  rw [stepsLeft_of_waiting hp hw]
  exact hleft.trans_lt (Nat.lt_succ_self _)

/-- A command's own step ends it, or issues a request that a later step consumes the answer of. -/
theorem exec_ended_or_stepsLeft_lt {i : Instr} {s t : State} {op : BitVec 4} {k : Nat} {l : Locals}
    (hp : s.phase = .exec op k l) (hw : waiting s = false) (ht : exec i s = .next t) :
    Ended t ∨ (t.faulted = s.faulted ∧ t.script = s.script ∧ stepsLeft t < stepsLeft s) := by
  cases exec_progress ht with
  | finished e u => exact .inl (.inl rfl)
  | faulted f => exact .inl (.inr (by simp))
  | issued r k' l' hlt _ hr =>
    refine .inr ⟨rfl, rfl, ?_⟩
    have hbounds := expectedRequest_step_bounds hr
    rw [stepIndex_of_phase hp] at hlt
    rw [stepsLeft_of_not_waiting hp hw, stepsLeft_of_waiting (issue_phase ..) rfl, issue_params]
    omega

/-- Each step of a running command ends it or leaves it fewer steps to take. -/
theorem Unscripted.step_running {s : State} (h : Unscripted s) (hp : s.phase ≠ .idle) :
    ∃ t, step s = .next t ∧ (Ended t ∨ (Unscripted t ∧ stepsLeft t < stepsLeft s)) := by
  obtain ⟨hinv, hf, hs⟩ := h
  have keeps : ∀ {t}, step s = .next t → BlockInv t := everyStepKeepsTheInvariant s _ hinv
  cases hphase : s.phase with
  | idle => exact absurd hphase hp
  | exec op k l =>
    cases hw : waiting s with
    | true =>
      obtain ⟨t, hstep, htf, hts, hlt⟩ := step_stepsLeft_of_waiting hs hf hphase hw
      exact ⟨t, hstep, .inr ⟨⟨keeps hstep, htf, hts⟩, hlt⟩⟩
    | false =>
      have hseq : step s = sequencerMove s := (step_script_nil hf hs).trans (fairMove_of_not_waiting hw)
      cases hd : decode s.curCmd with
      | error e => exact ⟨_, hseq.trans (sequencerMove_illegal hphase hw hd), .inl (.inl rfl)⟩
      | ok i =>
        obtain ⟨t, ht⟩ := hinv.exec_next hphase hw hd
        have hstep := hseq.trans ((sequencerMove_run hphase hw hd).trans ht)
        refine ⟨t, hstep, (exec_ended_or_stepsLeft_lt hphase hw ht).imp_right ?_⟩
        rintro ⟨htf, hts, hlt⟩
        exact ⟨⟨keeps hstep, htf.trans hf, hts.trans hs⟩, hlt⟩

/-- The block comes to an end within the steps that are left. -/
theorem Unscripted.run_ended {s : State} (h : Unscripted s) :
    ∃ n t, n ≤ stepsLeft s ∧ Sys2Proof.core.run n s = .next t ∧ Ended t := by
  induction hm : stepsLeft s using Nat.strong_induction_on generalizing s with
  | _ m ih =>
    by_cases hp : s.phase = .idle
    · exact ⟨0, s, Nat.zero_le m, run_zero s, .inl hp⟩
    have hpos : 0 < m := hm ▸ stepsLeft_pos hp
    obtain ⟨t, hstep, hend | ⟨ht, hlt⟩⟩ := h.step_running hp
    · exact ⟨1, t, hpos, (run_succ 0 hstep).trans (run_zero t), hend⟩
    · rw [hm] at hlt
      obtain ⟨n, u, hn, hrun, hend⟩ := ih _ hlt ht rfl
      exact ⟨n + 1, u, hn.trans_lt hlt, (run_succ n hstep).trans hrun, hend⟩

/-- Settles O56: each step uses up one of the steps that are left, which are at most `2 * n + 9`. -/
theorem acceptedCommandsFinish : Obligations.AcceptedCommandsFinish := by
  intro s hinv hf hs
  obtain ⟨n, t, hn, hrun, hend⟩ := Unscripted.run_ended ⟨hinv, hf, hs⟩
  exact ⟨n, t, hn.trans hinv.stepsLeft_le, hrun, hend⟩

end Sys2Proof.Machine
end
